-- ==== Sys2Proof/Word.lean ====
section
/-! DEFINITION. The word and byte types of the engine (00_scope.md R8: "all words are unsigned 32-bit words"). -/

namespace Sys2Proof

/-- A 32-bit unsigned word, bit 0 least significant (00_scope.md R8, R10). -/
abbrev Word := BitVec 32

/-- An 8-bit unsigned byte. -/
abbrev Byte := BitVec 8

end Sys2Proof
end

