-- ==== Sys2Proof/Syntax.lean ====
section
/-! DEFINITION. The commands of the engine, one constructor per row of spec/opcode_table.json (30_encoding.md R93). -/

namespace Sys2Proof

/-- A command (30_encoding.md R93). The three commands whose LEN is checked when they execute carry it, as a byte
count (R92); in the other seven LEN is zero by R94. All other operands are implicit (R96). -/
inductive Instr where
  /-- No operation (44_cipher_engine.md R208). -/
  | nop
  /-- Key expansion (42_key_schedule.md R166); `len` is the declared key length. -/
  | keyexp (len : Nat)
  /-- Encrypt one block (44_cipher_engine.md R206); `len` is the declared block length. -/
  | enc (len : Nat)
  /-- Decrypt one block (44_cipher_engine.md R207); `len` is the declared block length. -/
  | dec (len : Nat)
  /-- Byte substitution of one word (41_substitution_diffusion.md R150). -/
  | tau
  /-- Round-function diffusion L of one word (41_substitution_diffusion.md R151). -/
  | lin
  /-- Key-schedule diffusion L′ of one word (41_substitution_diffusion.md R152). -/
  | link
  /-- Round composite T of one word (43_round_function.md R189). -/
  | trnd
  /-- Key-schedule composite T′ of one word (42_key_schedule.md R167). -/
  | tkey
  /-- One round F (43_round_function.md R190). -/
  | frnd
deriving DecidableEq, Repr

end Sys2Proof
end

