-- ==== Sys2Proof/WellFormed.lean ====
section
/-! DEFINITION. Which command terms have an encoding: LEN is an 8-bit byte count "from 0 to 255" (30_encoding.md R92). -/

namespace Sys2Proof

/-- The command can be written as a command word: its LEN, where it carries one, is at most 255
(30_encoding.md R92; R99: "with 0 ≤ len ≤ 255"). A length other than 16 is well formed: it raises an error when
the command executes. -/
def Instr.wellFormed : Instr → Bool
  | .keyexp len => decide (len ≤ 255)
  | .enc len => decide (len ≤ 255)
  | .dec len => decide (len ≤ 255)
  | .nop => true
  | .tau => true
  | .lin => true
  | .link => true
  | .trnd => true
  | .tkey => true
  | .frnd => true

end Sys2Proof
end

