-- ==== Sys2Proof/Decode.lean ====
section
/-! DEFINITION. The command word: fields, decoder and encoder (30_encoding.md R90 to R97). -/

namespace Sys2Proof

/-- Why a command word is illegal (30_encoding.md R95). Each raises IllegalCommand when the command completes. -/
inductive DecodeError where
  /-- RSV, w[31:16], is not zero. -/
  | reservedBits
  /-- OPC is unassigned: 0x04..0x0F or 0x16..0xFF. -/
  | unassignedOpcode
  /-- LEN is not zero in a command that takes no length. -/
  | lengthNotZero
deriving DecidableEq, Repr

/-- OPC = w[7:0] (30_encoding.md R90). -/
def fieldOpc (w : Word) : Byte := w.extractLsb' 0 8

/-- LEN = w[15:8] (30_encoding.md R90). -/
def fieldLen (w : Word) : Byte := w.extractLsb' 8 8

/-- RSV = w[31:16] (30_encoding.md R90). -/
def fieldRsv (w : Word) : BitVec 16 := w.extractLsb' 16 16

/-- A command that takes no length: any LEN but zero is illegal (30_encoding.md R94). -/
def requireNoLength (len : Byte) (i : Instr) : Except DecodeError Instr :=
  if len = 0 then .ok i else .error .lengthNotZero

/-- The opcode map (30_encoding.md R93), for a word whose RSV is zero. LEN is read as an unsigned byte count (R92). -/
def decodeOp (opc len : Byte) : Except DecodeError Instr :=
  match opc with
  | 0x00#8 => requireNoLength len .nop
  | 0x01#8 => .ok (.keyexp len.toNat)
  | 0x02#8 => .ok (.enc len.toNat)
  | 0x03#8 => .ok (.dec len.toNat)
  | 0x10#8 => requireNoLength len .tau
  | 0x11#8 => requireNoLength len .lin
  | 0x12#8 => requireNoLength len .link
  | 0x13#8 => requireNoLength len .trnd
  | 0x14#8 => requireNoLength len .tkey
  | 0x15#8 => requireNoLength len .frnd
  | _ => .error .unassignedOpcode

/-- Decoding, total on every 32-bit word (30_encoding.md R94). -/
def decode (w : Word) : Except DecodeError Instr :=
  if fieldRsv w ≠ 0 then .error .reservedBits else decodeOp (fieldOpc w) (fieldLen w)

/-- The operation code of a command (30_encoding.md R93). -/
def opcode : Instr → Byte
  | .nop => 0x00
  | .keyexp _ => 0x01
  | .enc _ => 0x02
  | .dec _ => 0x03
  | .tau => 0x10
  | .lin => 0x11
  | .link => 0x12
  | .trnd => 0x13
  | .tkey => 0x14
  | .frnd => 0x15

/-- The LEN field of a command: the length it carries, and zero in a command without a length (30_encoding.md R93). -/
def lenField : Instr → Byte
  | .keyexp len => BitVec.ofNat 8 len
  | .enc len => BitVec.ofNat 8 len
  | .dec len => BitVec.ofNat 8 len
  | .nop => 0
  | .tau => 0
  | .lin => 0
  | .link => 0
  | .trnd => 0
  | .tkey => 0
  | .frnd => 0

/-- The command word with the given length and operation code: `(len << 8) | OPC` (30_encoding.md R99). -/
def commandWord (len opc : Byte) : Word := (len.setWidth 32 <<< 8) ||| opc.setWidth 32

/-- The word of a command (30_encoding.md R90, R93, R99), RSV zero. -/
def encode (i : Instr) : Word := commandWord (lenField i) (opcode i)

/-- The command the decoder reads from a table word of `nbits` bits whose value is `w`: a command is one 32-bit
word, bit 0 least significant (30_encoding.md R90, R91), and the bits above `nbits` are zero. -/
def decodeTableWord (nbits w : Nat) : Option Instr :=
  match decode (BitVec.ofNat 32 (w % 2 ^ nbits)) with
  | .ok i => some i
  | .error _ => none

end Sys2Proof
end

