-- ==== Sys2Proof/Config.lean ====
section
/-! DEFINITION. What the platform or an implementation fixes (00_scope.md R9) and the free values. Every value the
spec leaves open is an opaque constant: nothing can be proved about which value it has. -/

namespace Sys2Proof.Config

/-- The upper 19 bits of SM4_BASE, chosen by the platform (00_scope.md R9: "32-bit, 0x2000-aligned,
platform-chosen"). DESIGN CHOICE (log 7): the alignment is built in, the page is free. Safe. -/
opaque sm4BasePage : BitVec 19

/-- SM4_BASE, the bus address of register offset 0x0000 (00_scope.md R9). -/
def sm4Base : Word := sm4BasePage ++ 0#13

/-- RK_RESET, word by word: the round-key file after reset, "any 32 words" (00_scope.md R9; 10_state.md R36).
The first argument numbers the reset, 0 for the first, so that no two resets are bound to leave the same words; the
second is the word's index. A free value (log 3). Safe. -/
opaque rkReset : Nat → Nat → Word

/-- The unspecified word that a host read of RK0..RK31 returns while KSV = 0 (10_state.md R36; 20_memory.md R63),
one for each read; the argument is State's draw counter. A free value (log 4). Safe. -/
opaque rkDraw : Nat → Word

/-- The value of a variable of a host that the host has not written: arguments are the host's index and the
variable's number. The spec gives none (30_encoding.md R99). A free value (log 11). Safe. -/
opaque hostVarInit : Nat → Nat → Word

end Sys2Proof.Config
end

