-- ==== Sys2Proof/Machine/State.lean ====
section
/-! DEFINITION. The state of the machine as plain data (10_state.md R20 to R40; 00_scope.md R7), the reasons a step
can stop, and the state after reset (10_state.md R38). -/

namespace Sys2Proof.Machine

/-- CONFIG.STRAT, the evaluation strategy of T: 0 is direct, 1 is table-driven (10_state.md R23). -/
inductive Strategy where
  | direct
  | table
deriving DecidableEq, Repr

/-- The pending-command latch P (10_state.md R33): the command word and the operand snapshot held between issue
and completion. It is meaningful only while BUSY = 1. -/
structure Latch where
  cmd   : Word
  key   : Vector Word 4
  din   : Vector Word 4
  arg   : Word
  strat : Strategy
deriving DecidableEq, Repr

/-- A host statement: the two bus operations (30_encoding.md R98) and the host branch (R99). `width` is the access
width in bytes; `target` is the index of the statement a label names. -/
inductive Stmt where
  /-- `MemWrite(addr, width, v)`. -/
  | memWrite (addr : Word) (width : Nat) (v : Word)
  /-- `hN <- MemRead(addr, width)`, with `h` the number N of the variable. -/
  | memRead (h : Nat) (addr : Word) (width : Nat)
  /-- `bnz hN, mask, label`. -/
  | bnz (h : Nat) (mask : Word) (target : Nat)
deriving DecidableEq, Repr

/-- A host agent (00_scope.md R7, R18): its program, the index of its next statement, and the variables it has
written, as number and value in strictly rising order of the number. -/
structure HostAgent where
  prog : List Stmt
  pc   : Nat
  vars : List (Nat × Word)
deriving DecidableEq, Repr

/-- One event of the total order of accesses and completions (20_memory.md R71): whose turn it is. DESIGN CHOICE
(log 1): the order is an input, held as data, and every order is allowed. -/
inductive Turn where
  /-- The engine's step, if it is enabled. -/
  | engine
  /-- The next statement of the host with this index. -/
  | host (k : Nat)
  /-- The platform's reset (70_reset_and_hazards.md R260). -/
  | reset
deriving DecidableEq, Repr

/-- Everything the spec gives the machine (10_state.md R40), the hosts (00_scope.md R7), the order of events that the
outside world chooses (20_memory.md R71), and the counter of free values. -/
structure State where
  /-- CONFIG.STRAT (R23). -/
  strat    : Strategy
  /-- The last accepted command word, which CMD reads back (R24). -/
  cmdLast  : Word
  /-- STATUS.BUSY (R25). -/
  busy     : Bool
  /-- STATUS.KSV (R31). -/
  ksv      : Bool
  /-- STATUS.OVR (R25). -/
  ovr      : Bool
  /-- STATUS.ERR (R25). -/
  err      : BitVec 4
  /-- KEY0..KEY3 (R26). -/
  key      : Vector Word 4
  /-- DIN0..DIN3 (R26). -/
  din      : Vector Word 4
  /-- ARG (R26). -/
  arg      : Word
  /-- DOUT0..DOUT3 (R29). -/
  dout     : Vector Word 4
  /-- The round-key file RKF[0..31] (R30). -/
  rkf      : Vector Word 32
  /-- The pending-command latch P (R33). -/
  p        : Latch
  /-- How many free values have been drawn, by reads of RK0..RK31 and by resets (R36). The model's own counter (logs 3
  and 4). -/
  draws    : Nat
  /-- The host agents, N_HOSTS of them (00_scope.md R9). -/
  hosts    : List HostAgent
  /-- The events to come, in their total order (20_memory.md R71). -/
  schedule : List Turn
deriving DecidableEq, Repr

/-- Why the machine stops with a fault. No command of the engine raises one (60_exceptions.md R233). -/
inductive Fault where
  /-- Raised by a host statement whose address lies outside the register window, the only address space
  (20_memory.md R60); "the platform … decides what lies outside the window" (R69). Safe: the run stops and no
  engine state has changed (log 10). -/
  | outsideWindow
deriving DecidableEq, Repr

/-- Why the machine has no step. No command of the engine is refused. -/
inductive Refusal where
  /-- Raised by an arm of `exec` for a command that has no meaning yet; no arm does so now. Safe: the run stops. -/
  | notModelled (mnemonic : String)
  /-- Raised by a host statement that accesses the window with a width other than 4 bytes or at an offset that is
  not a multiple of 4: "A model refuses such an access: the host agent has no step" (20_memory.md R62). Safe: the
  run stops and no engine state has changed (log 9). -/
  | accessNotAdmitted
deriving DecidableEq, Repr

/-- The outcome of a step or of a command. -/
abbrev Result := Host.Outcome State Fault Refusal

/-- The latch after reset. The spec says "empty (BUSY = 0); contents irrelevant" (10_state.md R38). DESIGN CHOICE
(log 5): zeros. Unsafe as a value, though no event reads it before an issue has filled it. -/
def Latch.empty : Latch where
  cmd := 0
  key := #v[0, 0, 0, 0]
  din := #v[0, 0, 0, 0]
  arg := 0
  strat := .direct

/-- A host that has no program (log 8). -/
def HostAgent.idle : HostAgent where
  prog := []
  pc := 0
  vars := []

/-- The machine right after reset (10_state.md R38). RKF holds RK_RESET, which is free (log 3). DESIGN CHOICE
(log 8): one host without a program and no events to come, since programs and events come from outside. -/
def State.reset : State where
  strat := .direct
  cmdLast := 0
  busy := false
  ksv := false
  ovr := false
  err := 0
  key := #v[0, 0, 0, 0]
  din := #v[0, 0, 0, 0]
  arg := 0
  dout := #v[0, 0, 0, 0]
  rkf := Vector.ofFn fun i => Config.rkReset 0 i.val
  p := .empty
  draws := 0
  hosts := [.idle]
  schedule := []

end Sys2Proof.Machine
end

