-- ==== Sys2Proof/Machine/Flags.lean ====
section
/-! DEFINITION. The outcome codes and the words of STATUS and CONFIG (60_exceptions.md R230; 10_state.md R23, R25). -/

namespace Sys2Proof.Machine

/-- The errors a command can raise (60_exceptions.md R230). -/
inductive ErrorCode where
  /-- KEYEXP with LEN ≠ 16. -/
  | invalidKeyLength
  /-- ENC or DEC with LEN ≠ 16. -/
  | invalidBlockLength
  /-- ENC or DEC with KSV = 0. -/
  | noKeySchedule
  /-- A word that does not decode. -/
  | illegalCommand
deriving DecidableEq, Repr

/-- The code of an error in STATUS.ERR; 0 is "no error" (60_exceptions.md R230). -/
def ErrorCode.code : ErrorCode → BitVec 4
  | .invalidKeyLength => 1
  | .invalidBlockLength => 2
  | .noKeySchedule => 3
  | .illegalCommand => 4

/-- A flag as a word with that bit in bit 0. -/
def flagWord (b : Bool) : Word := if b then 1 else 0

/-- STATUS as a host reads it: BUSY [0], KSV [1], OVR [2], ERR [7:4], every other bit 0 (10_state.md R25). -/
def statusWord (s : State) : Word :=
  flagWord s.busy ||| (flagWord s.ksv <<< 1) ||| (flagWord s.ovr <<< 2) ||| (s.err.setWidth 32 <<< 4)

/-- CONFIG as a host reads it: STRAT [0], every other bit 0 (10_state.md R23). -/
def configWord : Strategy → Word
  | .direct => 0
  | .table => 1

/-- STRAT as a written CONFIG word sets it: bit 0, every other bit ignored (10_state.md R23). -/
def stratOfWord (v : Word) : Strategy := if v.getLsbD 0 then .table else .direct

end Sys2Proof.Machine
end

