-- ==== Sys2Proof/Machine/Operands.lean ====
section
/-! DEFINITION. The implicit operands of the commands, all taken from the latch P (30_encoding.md R92, R96). -/

namespace Sys2Proof.Machine

/-- The declared length is that of a key or a block, "exactly 16 bytes" (30_encoding.md R92). -/
def lengthOk (len : Nat) : Bool := len == 16

/-- The word operand of TAU, LIN, LINK, TRND and TKEY: P.din[0] (30_encoding.md R96). -/
def operandWord (s : State) : Word := s.p.din[0]

/-- The block operand of ENC and DEC: P.din[0..3] (30_encoding.md R96). -/
def operandBlock (s : State) : Vector Word 4 := s.p.din

/-- The key operand of KEYEXP: P.key[0..3] (30_encoding.md R96). -/
def operandKey (s : State) : Vector Word 4 := s.p.key

/-- The round-key operand of FRND: P.arg (30_encoding.md R96). -/
def operandRk (s : State) : Word := s.p.arg

/-- The strategy in force: P.strat (43_round_function.md R186). -/
def operandStrat (s : State) : Strategy := s.p.strat

end Sys2Proof.Machine
end

