-- ==== Sys2Proof/Machine/Ops.lean ====
section
/-! DEFINITION. The named operations on the state: the results a command writes, completion with and without an error,
issue and overrun, and reset (44_cipher_engine.md R200 to R202; 60_exceptions.md R232; 70_reset_and_hazards.md R260). -/

namespace Sys2Proof.Machine

/-- Write DOUT0 and leave DOUT1..DOUT3 (10_state.md R29). -/
def setDout0 (s : State) (v : Word) : State := { s with dout := s.dout.set 0 v }

/-- Write all of DOUT0..DOUT3 (10_state.md R29). -/
def setDout (s : State) (v : Vector Word 4) : State := { s with dout := v }

/-- Write all 32 entries of RKF at once and set KSV (10_state.md R30, R31). -/
def setSchedule (s : State) (rk : Vector Word 32) : State := { s with rkf := rk, ksv := true }

/-- Completion without an error: ERR <- 0, BUSY <- 0 (44_cipher_engine.md R202). -/
def finish (s : State) : State := { s with err := 0, busy := false }

/-- Taking an error, the engine's only exception: ERR <- the code, BUSY <- 0, "and with no other change"
(60_exceptions.md R232). It saves no state, changes no mode and transfers control nowhere (R237). -/
def raiseError (s : State) (e : ErrorCode) : State := { s with err := e.code, busy := false }

/-- An accepted issue (44_cipher_engine.md R200): the word and the operands are latched, ERR <- 0, BUSY <- 1. It is
also all the return from an error there is (60_exceptions.md R238). -/
def acceptIssue (s : State) (w : Word) : State :=
  { s with
    cmdLast := w
    p := { cmd := w, key := s.key, din := s.din, arg := s.arg, strat := s.strat }
    err := 0
    busy := true }

/-- An overrun: the write is dropped and OVR <- 1 (44_cipher_engine.md R201). -/
def overrun (s : State) : State := { s with ovr := true }

/-- A host write to CMD, an issue attempt (44_cipher_engine.md R200, R201). -/
def issue (s : State) (w : Word) : State := if s.busy then overrun s else acceptIssue s w

/-- Reset of the engine as one event (70_reset_and_hazards.md R260; 10_state.md R38). A pending command is abandoned.
RKF is left with RK_RESET, free words of this reset's own (log 3). Reset "writes nothing the engine does not own": hosts
and schedule stay (log 13). -/
def resetEngine (s : State) : State :=
  { State.reset with
    rkf := Vector.ofFn fun i => Config.rkReset (s.draws + 1) i.val
    draws := s.draws + 1
    hosts := s.hosts
    schedule := s.schedule }

/-- The platform asserts reset: the reset event comes before every other event (60_exceptions.md R236). -/
def assertReset (s : State) : State := { s with schedule := .reset :: s.schedule }

/-- The state with the given events still to come. -/
def setTurns (s : State) (ts : List Turn) : State := { s with schedule := ts }

/-- The state with the given hosts. -/
def setHosts (s : State) (hs : List HostAgent) : State := { s with hosts := hs }

end Sys2Proof.Machine
end

