-- ==== Sys2Proof/Machine/Bits.lean ====
section
/-! DEFINITION. Bytes of a word, big-endian packing and rotation (00_scope.md R11, R12, R13). -/

namespace Sys2Proof.Machine

/-- `byteJ(w) = w[31−8j : 24−8j]`: byte 0 is the most significant (00_scope.md R11). -/
def byteJ (w : Word) (j : Nat) : Byte := w.extractLsb' (24 - 8 * j) 8

/-- `BE32(b0, b1, b2, b3) = (b0 << 24) | (b1 << 16) | (b2 << 8) | b3` (00_scope.md R12). -/
def be32 (b0 b1 b2 b3 : Byte) : Word :=
  (b0.setWidth 32 <<< 24) ||| (b1.setWidth 32 <<< 16) ||| (b2.setWidth 32 <<< 8) ||| b3.setWidth 32

/-- `rotl(x, n)`, the 32-bit left circular rotation (00_scope.md R13). -/
def rotl (x : Word) (n : Nat) : Word := x.rotateLeft n

/-- A 16-byte string as four big-endian words (00_scope.md R12, `words(B)`). -/
def wordsOfBytes (b : Vector Byte 16) : Vector Word 4 :=
  #v[be32 b[0] b[1] b[2] b[3], be32 b[4] b[5] b[6] b[7], be32 b[8] b[9] b[10] b[11], be32 b[12] b[13] b[14] b[15]]

/-- Four words as the 16-byte string they stand for (00_scope.md R12, `bytes(w0, w1, w2, w3)`). -/
def bytesOfWords (w : Vector Word 4) : Vector Byte 16 :=
  #v[byteJ w[0] 0, byteJ w[0] 1, byteJ w[0] 2, byteJ w[0] 3, byteJ w[1] 0, byteJ w[1] 1, byteJ w[1] 2, byteJ w[1] 3,
     byteJ w[2] 0, byteJ w[2] 1, byteJ w[2] 2, byteJ w[2] 3, byteJ w[3] 0, byteJ w[3] 1, byteJ w[3] 2, byteJ w[3] 3]

end Sys2Proof.Machine
end

