-- ==== Sys2Proof/Machine/Transforms.lean ====
section
/-! DEFINITION. Byte substitution τ, the linear diffusions L and L′, and the combined tables CT
(41_substitution_diffusion.md R140 to R146; 40_constants.md R126). -/

namespace Sys2Proof.Machine

/-- Byte substitution τ (41_substitution_diffusion.md R140). -/
def tau (x : Word) : Word := be32 (sbox (byteJ x 0)) (sbox (byteJ x 1)) (sbox (byteJ x 2)) (sbox (byteJ x 3))

/-- The round-function diffusion L (41_substitution_diffusion.md R143). -/
def diffL (b : Word) : Word := b ^^^ rotl b 2 ^^^ rotl b 10 ^^^ rotl b 18 ^^^ rotl b 24

/-- The key-schedule diffusion L′ (41_substitution_diffusion.md R144). -/
def diffL' (b : Word) : Word := b ^^^ rotl b 13 ^^^ rotl b 23

/-- The combined tables: `CT[j][b] = L(zext_32(S[b]) << (24 − 8·j))` (40_constants.md R126). -/
def ct (j : Nat) (b : Byte) : Word := diffL ((sbox b).setWidth 32 <<< (24 - 8 * j))

end Sys2Proof.Machine
end

