-- ==== Sys2Proof/Machine/KeyExpansion.lean ====
section
/-! DEFINITION. The key-schedule composite T′ and the key expansion (42_key_schedule.md R160 to R165). -/

namespace Sys2Proof.Machine

/-- The key-schedule composite `T′(x) = L′(τ(x))` (42_key_schedule.md R160). -/
def tPrime (x : Word) : Word := diffL' (tau x)

/-- Four consecutive words of the sequence X or K: the sliding window that 93_implementation_defined.md U13 allows in
place of the 36-word array. DESIGN CHOICE (log 15): exact, hence safe. -/
structure Slide where
  a : Word
  b : Word
  c : Word
  d : Word
deriving DecidableEq, Repr

/-- Move the window one word on: the oldest word leaves and `x` enters. -/
def Slide.push (k : Slide) (x : Word) : Slide := ⟨k.b, k.c, k.d, x⟩

/-- The next key word, `K[i+4] = K[i] ⊕ T′(K[i+1] ⊕ K[i+2] ⊕ K[i+3] ⊕ CK[i])` (42_key_schedule.md R163). -/
def nextKeyWord (k : Slide) (c : Word) : Word := k.a ^^^ tPrime (k.b ^^^ k.c ^^^ k.d ^^^ c)

/-- The round subkeys generated from the window `k`, one for each fixed parameter, in generation order
(42_key_schedule.md R163, R164). -/
def keyWords : List Word → Slide → List Word
  | [], _ => []
  | c :: cs, k => nextKeyWord k c :: keyWords cs (k.push (nextKeyWord k c))

/-- Whitening: `K[i] = MK[i] ⊕ FK[i]` for i in 0..3 (42_key_schedule.md R162). -/
def whiten (mk : Vector Word 4) : Slide := ⟨mk[0] ^^^ fk[0], mk[1] ^^^ fk[1], mk[2] ^^^ fk[2], mk[3] ^^^ fk[3]⟩

theorem length_keyWords (cs : List Word) (k : Slide) : (keyWords cs k).length = cs.length := by
  induction cs generalizing k with
  | nil => rfl
  | cons c cs ih => simp [keyWords, ih]

/-- `expand(MK) = [RK[0], …, RK[31]]` (42_key_schedule.md R163). -/
def expand (mk : Vector Word 4) : Vector Word 32 :=
  ⟨(keyWords ck.toList (whiten mk)).toArray, by simp [length_keyWords]⟩

end Sys2Proof.Machine
end

