-- ==== Sys2Proof/Machine/RoundFunction.lean ====
section
/-! DEFINITION. The round composite T in both strategies, the round function F, and the 32 rounds
(43_round_function.md R180 to R187; 44_cipher_engine.md R203 to R205). -/

namespace Sys2Proof.Machine

/-- The direct strategy, `T_direct(x) = L(τ(x))` (43_round_function.md R182). -/
def tDirect (x : Word) : Word := diffL (tau x)

/-- The table-driven strategy (43_round_function.md R183). -/
def tTable (x : Word) : Word := ct 0 (byteJ x 0) ^^^ ct 1 (byteJ x 1) ^^^ ct 2 (byteJ x 2) ^^^ ct 3 (byteJ x 3)

/-- T by the strategy in force (43_round_function.md R186). -/
def roundT : Strategy → Word → Word
  | .direct, x => tDirect x
  | .table, x => tTable x

/-- The round function `F(x0, x1, x2, x3, rk) = x0 ⊕ T(x1 ⊕ x2 ⊕ x3 ⊕ rk)` (43_round_function.md R181). -/
def roundF (st : Strategy) (x0 x1 x2 x3 rk : Word) : Word := x0 ^^^ roundT st (x1 ^^^ x2 ^^^ x3 ^^^ rk)

/-- One round on the window: `X[i+4] = F(X[i], X[i+1], X[i+2], X[i+3], R[i])` (44_cipher_engine.md R205). -/
def roundStep (st : Strategy) (x : Slide) (rk : Word) : Slide := x.push (roundF st x.a x.b x.c x.d rk)

/-- The rounds under the subkeys `ks`, in their order (44_cipher_engine.md R205). -/
def rounds (st : Strategy) (ks : List Word) (x : Slide) : Slide := ks.foldl (roundStep st) x

/-- The direction of `process` (44_cipher_engine.md R204). -/
inductive Direction where
  | encrypt
  | decrypt
deriving DecidableEq, Repr

/-- The subkey order: `R[i] = RKF[i]` to encrypt, `R[i] = RKF[31 − i]` to decrypt (44_cipher_engine.md R204). -/
def subkeys : Direction → Vector Word 32 → List Word
  | .encrypt, rkf => rkf.toList
  | .decrypt, rkf => rkf.toList.reverse

/-- `X[i] = P.din[i]` (44_cipher_engine.md R203). -/
def loadBlock (x : Vector Word 4) : Slide := ⟨x[0], x[1], x[2], x[3]⟩

/-- The output block `(X[35], X[34], X[33], X[32])` (44_cipher_engine.md R205). -/
def storeBlock (x : Slide) : Vector Word 4 := #v[x.d, x.c, x.b, x.a]

/-- `process(X0..X3, RKF, dir, strat)` (44_cipher_engine.md R205). -/
def process (x : Vector Word 4) (rkf : Vector Word 32) (dir : Direction) (st : Strategy) : Vector Word 4 :=
  storeBlock (rounds st (subkeys dir rkf) (loadBlock x))

end Sys2Proof.Machine
end

