-- ==== Sys2Proof/Machine/Cipher.lean ====
section
/-! DEFINITION. The commands NOP, ENC and DEC (44_cipher_engine.md R206 to R208). -/

namespace Sys2Proof.Machine

/-- NOP: nothing but the completion (44_cipher_engine.md R208). -/
def execNop (s : State) : Result := .next (finish s)

/-- ENC and DEC: the length check, then the schedule check, then DOUT0..DOUT3 <- process(P.din, RKF, dir, P.strat)
(44_cipher_engine.md R206, R207; 60_exceptions.md R231). -/
def cryptBlock (dir : Direction) (len : Nat) (s : State) : Result :=
  if lengthOk len then
    if s.ksv then .next (finish (setDout s (process (operandBlock s) s.rkf dir (operandStrat s))))
    else .next (raiseError s .noKeySchedule)
  else .next (raiseError s .invalidBlockLength)

/-- ENC (44_cipher_engine.md R206). -/
def execEnc (len : Nat) (s : State) : Result := cryptBlock .encrypt len s

/-- DEC (44_cipher_engine.md R207). -/
def execDec (len : Nat) (s : State) : Result := cryptBlock .decrypt len s

end Sys2Proof.Machine
end

