-- ==== Sys2Proof/Machine/KeySchedule.lean ====
section
/-! DEFINITION. The commands KEYEXP and TKEY (42_key_schedule.md R166, R167). -/

namespace Sys2Proof.Machine

/-- KEYEXP: the length check "before any computation", then RKF <- expand(P.key) and KSV <- 1
(42_key_schedule.md R166). -/
def execKeyexp (len : Nat) (s : State) : Result :=
  if lengthOk len then .next (finish (setSchedule s (expand (operandKey s))))
  else .next (raiseError s .invalidKeyLength)

/-- TKEY: DOUT0 <- T′(P.din[0]) (42_key_schedule.md R167). -/
def execTkey (s : State) : Result := .next (finish (setDout0 s (tPrime (operandWord s))))

end Sys2Proof.Machine
end

