-- ==== Sys2Proof/Machine/Round.lean ====
section
/-! DEFINITION. The commands TRND and FRND (43_round_function.md R189, R190). -/

namespace Sys2Proof.Machine

/-- TRND: DOUT0 <- T(P.din[0]) by P.strat (43_round_function.md R189). -/
def execTrnd (s : State) : Result := .next (finish (setDout0 s (roundT (operandStrat s) (operandWord s))))

/-- FRND: DOUT0 <- F(P.din[0], P.din[1], P.din[2], P.din[3], P.arg) by P.strat (43_round_function.md R190). -/
def execFrnd (s : State) : Result :=
  let x := operandBlock s
  .next (finish (setDout0 s (roundF (operandStrat s) x[0] x[1] x[2] x[3] (operandRk s))))

end Sys2Proof.Machine
end

