-- ==== Sys2Proof/Machine/Substitution.lean ====
section
/-! DEFINITION. The commands TAU, LIN and LINK (41_substitution_diffusion.md R150 to R152). -/

namespace Sys2Proof.Machine

/-- TAU: DOUT0 <- τ(P.din[0]) (41_substitution_diffusion.md R150). -/
def execTau (s : State) : Result := .next (finish (setDout0 s (tau (operandWord s))))

/-- LIN: DOUT0 <- L(P.din[0]) (41_substitution_diffusion.md R151). -/
def execLin (s : State) : Result := .next (finish (setDout0 s (diffL (operandWord s))))

/-- LINK: DOUT0 <- L′(P.din[0]) (41_substitution_diffusion.md R152). -/
def execLink (s : State) : Result := .next (finish (setDout0 s (diffL' (operandWord s))))

end Sys2Proof.Machine
end

