-- ==== Sys2Proof/Machine/Dispatch.lean ====
section
/-! DEFINITION. `exec`: the completion of a decoded command, one arm per command (44_cipher_engine.md R202). -/

namespace Sys2Proof.Machine

/-- The completion of a decoded command: its own effect, and STATUS.ERR and STATUS.BUSY (44_cipher_engine.md R202). -/
def exec (i : Instr) (s : State) : Host.Outcome State Fault Refusal :=
  match i with
  | .nop => Sys2Proof.Machine.execNop s
  | .keyexp len => Sys2Proof.Machine.execKeyexp len s
  | .enc len => Sys2Proof.Machine.execEnc len s
  | .dec len => Sys2Proof.Machine.execDec len s
  | .tau => Sys2Proof.Machine.execTau s
  | .lin => Sys2Proof.Machine.execLin s
  | .link => Sys2Proof.Machine.execLink s
  | .trnd => Sys2Proof.Machine.execTrnd s
  | .tkey => Sys2Proof.Machine.execTkey s
  | .frnd => Sys2Proof.Machine.execFrnd s

end Sys2Proof.Machine
end

