-- ==== Sys2Proof/Machine/Engine.lean ====
section
/-! DEFINITION. The engine agent's step (44_cipher_engine.md R202; 60_exceptions.md R245). -/

namespace Sys2Proof.Machine

/-- The completion: P.cmd is decoded now, not at issue (30_encoding.md R94), and an illegal word raises IllegalCommand
(44_cipher_engine.md R202). -/
def complete (s : State) : Result :=
  match decode s.p.cmd with
  | .ok i => exec i s
  | .error _ => .next (raiseError s .illegalCommand)

/-- The engine's turn: it completes the latched command if BUSY = 1; while BUSY = 0 it "has no enabled step and simply
holds its state" (44_cipher_engine.md R202; 60_exceptions.md R245). -/
def engineTurn (s : State) : Result := if s.busy then complete s else .next s

end Sys2Proof.Machine
end

