-- ==== Sys2Proof/Machine/Window.lean ====
section
/-! DEFINITION. The register window: the register map, and what a host read and a host write of a register do
(10_state.md R20 to R32; 20_memory.md R60 to R68). -/

namespace Sys2Proof.Machine

/-- The registers of 10_state.md R20. -/
inductive Reg where
  | id
  | config
  | cmd
  | status
  | key (i : Fin 4)
  | din (i : Fin 4)
  | arg
  | dout (i : Fin 4)
  | rk (i : Fin 32)
  | fk (i : Fin 4)
  | ck (i : Fin 32)
  | sboxw (w : Fin 64)
  | ct (j : Fin 4) (b : Fin 256)
deriving DecidableEq, Repr

/-- The byte offset of a register from SM4_BASE (10_state.md R20). -/
def Reg.offset : Reg → Nat
  | .id => 0x000
  | .config => 0x004
  | .cmd => 0x008
  | .status => 0x00C
  | .key i => 0x010 + 4 * i.val
  | .din i => 0x020 + 4 * i.val
  | .arg => 0x030
  | .dout i => 0x040 + 4 * i.val
  | .rk i => 0x100 + 4 * i.val
  | .fk i => 0x200 + 4 * i.val
  | .ck i => 0x280 + 4 * i.val
  | .sboxw w => 0x400 + 4 * w.val
  | .ct j b => 0x1000 + 0x400 * j.val + 4 * b.val

/-- One row of the register map: `k` registers at the word slots from `base` on, if slot `n` is one of them. -/
def group (base k : Nat) (f : Fin k → Reg) (n : Nat) : Option Reg :=
  if h : base ≤ n ∧ n - base < k then some (f ⟨n - base, h.2⟩) else none

/-- CT_j_b of the combined tables, 256 words each, in order (10_state.md R20). -/
def ctEntry (m : Fin 1024) : Reg :=
  .ct ⟨m.val / 256, Nat.div_lt_of_lt_mul m.isLt⟩ ⟨m.val % 256, Nat.mod_lt _ (by decide)⟩

/-- The register of word slot `n`, which is at offset 4·n (10_state.md R20); none for a reserved slot
(20_memory.md R64). -/
def Reg.ofSlot (n : Nat) : Option Reg :=
  (group 0x000 1 (fun _ => .id) n).or <|
  (group 0x001 1 (fun _ => .config) n).or <|
  (group 0x002 1 (fun _ => .cmd) n).or <|
  (group 0x003 1 (fun _ => .status) n).or <|
  (group 0x004 4 .key n).or <|
  (group 0x008 4 .din n).or <|
  (group 0x00C 1 (fun _ => .arg) n).or <|
  (group 0x010 4 .dout n).or <|
  (group 0x040 32 .rk n).or <|
  (group 0x080 4 .fk n).or <|
  (group 0x0A0 32 .ck n).or <|
  (group 0x100 64 .sboxw n).or <|
  group 0x400 1024 ctEntry n

/-- The register at a byte offset that is a multiple of 4. -/
def Reg.ofOffset (off : Nat) : Option Reg := Reg.ofSlot (off / 4)

/-- The offset of a bus address, `addr − SM4_BASE` (20_memory.md R62). -/
def busOffset (addr : Word) : Nat := (addr - Config.sm4Base).toNat

/-- The bus address of an offset, `SM4_BASE + off` (20_memory.md R60). -/
def busAddr (off : Nat) : Word := Config.sm4Base + BitVec.ofNat 32 off

/-- The address lies in the register window, offsets 0x0000 to 0x1FFF (20_memory.md R60). -/
def inWindow (addr : Word) : Bool := decide (busOffset addr ≤ 0x1FFF)

/-- The access is admitted: 32 bits wide, at an offset that is a multiple of 4 and at most 0x1FFC (20_memory.md R62). -/
def admitted (addr : Word) (width : Nat) : Bool :=
  decide (width = 4 ∧ busOffset addr % 4 = 0 ∧ busOffset addr ≤ 0x1FFC)

/-- The word a register holds (10_state.md R22 to R32). SBOXWw packs four S-box entries big-endian (R32). -/
def regValue (s : State) : Reg → Word
  | .id => idWord
  | .config => configWord s.strat
  | .cmd => s.cmdLast
  | .status => statusWord s
  | .key i => s.key[i]
  | .din i => s.din[i]
  | .arg => s.arg
  | .dout i => s.dout[i]
  | .rk i => s.rkf[i]
  | .fk i => fk[i]
  | .ck i => ck[i]
  | .sboxw w =>
    be32 (sbox (BitVec.ofNat 8 (4 * w.val))) (sbox (BitVec.ofNat 8 (4 * w.val + 1)))
      (sbox (BitVec.ofNat 8 (4 * w.val + 2))) (sbox (BitVec.ofNat 8 (4 * w.val + 3)))
  | .ct j b => ct j.val (BitVec.ofNat 8 b.val)

/-- A host read of RKi: RKF[i] while KSV = 1, and an unspecified word, a new one at each read, while KSV = 0
(10_state.md R36; 20_memory.md R63; log 4). -/
def readRk (s : State) (i : Fin 32) : Word × State :=
  if s.ksv then (s.rkf[i], s) else (Config.rkDraw s.draws, { s with draws := s.draws + 1 })

/-- A host read of a register: its value and the state after, which no read changes but for the count of free values
(20_memory.md R63, R68). -/
def readReg (s : State) : Reg → Word × State
  | .rk i => readRk s i
  | r => (regValue s r, s)

/-- A host read at an admitted offset; a reserved slot reads 0 (20_memory.md R63, R64). -/
def readOffset (s : State) (off : Nat) : Word × State :=
  match Reg.ofOffset off with
  | some r => readReg s r
  | none => (0, s)

/-- A host write to STATUS: a 1 in bit 2 clears OVR, every other bit is ignored (10_state.md R25). -/
def writeStatus (s : State) (v : Word) : State := if v.getLsbD 2 then { s with ovr := false } else s

/-- A host write to a register, by its access kind (10_state.md R21; 20_memory.md R65). -/
def writeReg (s : State) (r : Reg) (v : Word) : State :=
  match r with
  | .config => { s with strat := stratOfWord v }
  | .cmd => issue s v
  | .status => writeStatus s v
  | .key i => { s with key := s.key.set i v }
  | .din i => { s with din := s.din.set i v }
  | .arg => { s with arg := v }
  | .id => s
  | .dout _ => s
  | .rk _ => s
  | .fk _ => s
  | .ck _ => s
  | .sboxw _ => s
  | .ct _ _ => s

/-- A host write at an admitted offset; a write to a reserved slot is ignored (20_memory.md R64, R65). -/
def writeOffset (s : State) (off : Nat) (v : Word) : State :=
  match Reg.ofOffset off with
  | some r => writeReg s r v
  | none => s

end Sys2Proof.Machine
end

