-- ==== Sys2Proof/Machine/Hosts.lean ====
section
/-! DEFINITION. The host agents' step: bus accesses and the host branch (30_encoding.md R98, R99; 20_memory.md R62 to R65). -/

namespace Sys2Proof.Machine

/-- Set a variable, keeping the list in strictly rising order of the variables' numbers. -/
def setVar (n : Nat) (v : Word) : List (Nat × Word) → List (Nat × Word)
  | [] => [(n, v)]
  | (m, u) :: rest =>
    if n < m then (n, v) :: (m, u) :: rest
    else if n = m then (n, v) :: rest
    else (m, u) :: setVar n v rest

/-- The value of variable `n`, if the host has written it. -/
def getVar (n : Nat) : List (Nat × Word) → Option Word
  | [] => none
  | (m, u) :: rest => if n = m then some u else getVar n rest

/-- The value of variable `n` of host `k`; a free value if the host has not written it (log 11). -/
def HostAgent.var (h : HostAgent) (k n : Nat) : Word :=
  match getVar n h.vars with
  | some v => v
  | none => Config.hostVarInit k n

/-- The host goes on to its next statement. -/
def HostAgent.advance (h : HostAgent) : HostAgent := { h with pc := h.pc + 1 }

/-- The host puts a value read into variable `n` and goes on. -/
def HostAgent.store (h : HostAgent) (n : Nat) (v : Word) : HostAgent :=
  { h with vars := setVar n v h.vars, pc := h.pc + 1 }

/-- `bnz`: "go to label if `hN & mask ≠ 0`" (30_encoding.md R99). -/
def HostAgent.branch (h : HostAgent) (k n : Nat) (mask : Word) (target : Nat) : HostAgent :=
  if h.var k n &&& mask ≠ 0 then { h with pc := target } else h.advance

/-- The state with host `k` replaced. -/
def setHost (s : State) (k : Nat) (h : HostAgent) : State := setHosts s (s.hosts.set k h)

/-- Every access goes through here: an admitted one gives `act` the offset, one outside the window faults (log 10), and
one the engine does not admit is refused (20_memory.md R62; log 9). -/
def access (addr : Word) (width : Nat) (act : Nat → State) : Result :=
  if inWindow addr then
    if admitted addr width then .next (act (busOffset addr)) else .refused .accessNotAdmitted
  else .fault .outsideWindow

/-- One statement of host `k` (30_encoding.md R98, R99). -/
def hostStmt (s : State) (k : Nat) (h : HostAgent) : Stmt → Result
  | .memWrite addr width v => access addr width fun off => setHost (writeOffset s off v) k h.advance
  | .memRead n addr width =>
    access addr width fun off =>
      let r := readOffset s off
      setHost r.2 k (h.store n r.1)
  | .bnz n mask target => .next (setHost s k (h.branch k n mask target))

/-- The turn of host `k`: its next statement. A host that has executed its last statement, or an index that names no
host, leaves the state as it is (log 12). -/
def hostTurn (s : State) (k : Nat) : Result :=
  match s.hosts[k]? with
  | none => .next s
  | some h =>
    match h.prog[h.pc]? with
    | none => .next s
    | some st => hostStmt s k h st

end Sys2Proof.Machine
end

