-- ==== Sys2Proof/Machine/Step.lean ====
section
/-! DEFINITION. One step of the whole machine: the next event of the total order (20_memory.md R71). -/

namespace Sys2Proof.Machine

/-- One event. The head of the schedule says whose turn it is; each event sees the state left by every event before it
(20_memory.md R71). When the schedule is used up the engine has the turn, so that a pending command "eventually
completes" (70_reset_and_hazards.md R276, weak fairness; log 2). -/
def step (s : State) : Host.Outcome State Fault Refusal :=
  match s.schedule with
  | [] => engineTurn s
  | .engine :: ts => engineTurn (setTurns s ts)
  | .host k :: ts => hostTurn (setTurns s ts) k
  | .reset :: ts => .next (resetEngine (setTurns s ts))

/-- The state in which the next step completes the command word `w`: the engine fetches nothing (10_state.md R27), a
command comes to it by an accepted issue, so the word is issued (44_cipher_engine.md R200) and the engine has the next
turn (log 8). The bits above `nbits` are zero. -/
def State.withFetchWord (s : State) (nbits w : Nat) : State :=
  setTurns (acceptIssue s (BitVec.ofNat 32 (w % 2 ^ nbits))) (.engine :: s.schedule)

end Sys2Proof.Machine
end

