-- ==== Sys2Proof/Machine/Assembler.lean ====
section
/-! DEFINITION. The host assembly statements and pseudo-statements as statements of a host program (30_encoding.md R99,
R100). In a statement a label is the index of the statement it names; `pos` is the index of a pseudo-statement's first
statement, and `t` its scratch variable. The text of a line is not modelled (log 18). -/

namespace Sys2Proof.Machine.Asm

/-- `wr REG, imm32`. -/
def wr (r : Reg) (v : Word) : Stmt := .memWrite (busAddr r.offset) 4 v

/-- `rd hN, REG`. -/
def rd (n : Nat) (r : Reg) : Stmt := .memRead n (busAddr r.offset) 4

/-- `cmd MNEMONIC`, and `cmd MNEMONIC, len` where the command carries a length: the command's own word. -/
def cmd (i : Instr) : Stmt := wr .cmd (encode i)

/-- `cmd MNEMONIC, len` for any mnemonic, one without a length too. -/
def cmdLen (i : Instr) (len : Byte) : Stmt := wr .cmd (commandWord len (opcode i))

/-- `cmdw imm32`. -/
def cmdw (w : Word) : Stmt := wr .cmd w

/-- `wait`: poll STATUS until BUSY = 0. -/
def wait (pos t : Nat) : List Stmt := [rd t .status, .bnz t 1 pos]

/-- `setkey k0, k1, k2, k3`. -/
def setkey (pos t : Nat) (k0 k1 k2 k3 : Word) : List Stmt :=
  [wr (.key 0) k0, wr (.key 1) k1, wr (.key 2) k2, wr (.key 3) k3, cmd (.keyexp 16)] ++ wait (pos + 5) t

/-- `wr DIN0..DIN3` of a block, as `encblk`, `decblk` and `frnd` begin. -/
def wrBlock (b0 b1 b2 b3 : Word) : List Stmt := [wr (.din 0) b0, wr (.din 1) b1, wr (.din 2) b2, wr (.din 3) b3]

/-- `encblk b0, b1, b2, b3`. -/
def encblk (pos t : Nat) (b0 b1 b2 b3 : Word) : List Stmt :=
  wrBlock b0 b1 b2 b3 ++ [cmd (.enc 16)] ++ wait (pos + 5) t

/-- `decblk b0, b1, b2, b3`. -/
def decblk (pos t : Nat) (b0 b1 b2 b3 : Word) : List Stmt :=
  wrBlock b0 b1 b2 b3 ++ [cmd (.dec 16)] ++ wait (pos + 5) t

/-- `rdblk h0, h1, h2, h3`. -/
def rdblk (n0 n1 n2 n3 : Nat) : List Stmt := [rd n0 (.dout 0), rd n1 (.dout 1), rd n2 (.dout 2), rd n3 (.dout 3)]

/-- `fn MNEMONIC, a`, for TAU, LIN, LINK, TRND and TKEY. -/
def fn (pos t : Nat) (i : Instr) (a : Word) : List Stmt := [wr (.din 0) a, cmd i] ++ wait (pos + 2) t

/-- `frnd x0, x1, x2, x3, rk`. -/
def frnd (pos t : Nat) (x0 x1 x2 x3 rk : Word) : List Stmt :=
  wrBlock x0 x1 x2 x3 ++ [wr .arg rk, cmd .frnd] ++ wait (pos + 6) t

/-- `strat direct` and `strat table`. -/
def strat : Strategy → Stmt
  | .direct => wr .config 0
  | .table => wr .config 1

/-- `clrovr`. -/
def clrovr : Stmt := wr .status 0x4

/-- A statement or pseudo-statement (30_encoding.md R99, R100) that refers to no label of the program. -/
inductive Code where
  | stmt (st : Stmt)
  | wait (t : Nat)
  | setkey (t : Nat) (k0 k1 k2 k3 : Word)
  | encblk (t : Nat) (b0 b1 b2 b3 : Word)
  | decblk (t : Nat) (b0 b1 b2 b3 : Word)
  | rdblk (n0 n1 n2 n3 : Nat)
  | fn (t : Nat) (i : Instr) (a : Word)
  | frnd (t : Nat) (x0 x1 x2 x3 rk : Word)
  | strat (st : Strategy)
  | clrovr
deriving DecidableEq, Repr

/-- The expansion of a statement that stands at index `pos` (30_encoding.md R100). -/
def Code.expansion (pos : Nat) : Code → List Stmt
  | .stmt st => [st]
  | .wait t => Asm.wait pos t
  | .setkey t k0 k1 k2 k3 => Asm.setkey pos t k0 k1 k2 k3
  | .encblk t b0 b1 b2 b3 => Asm.encblk pos t b0 b1 b2 b3
  | .decblk t b0 b1 b2 b3 => Asm.decblk pos t b0 b1 b2 b3
  | .rdblk n0 n1 n2 n3 => Asm.rdblk n0 n1 n2 n3
  | .fn t i a => Asm.fn pos t i a
  | .frnd t x0 x1 x2 x3 rk => Asm.frnd pos t x0 x1 x2 x3 rk
  | .strat st => [Asm.strat st]
  | .clrovr => [Asm.clrovr]

/-- A line of a host program (30_encoding.md R99). -/
inductive Line where
  /-- `label:` names the next statement. -/
  | label (name : String)
  /-- `bnz hN, mask, label`. -/
  | bnz (h : Nat) (mask : Word) (name : String)
  /-- A line that refers to no label. -/
  | code (c : Code)
deriving DecidableEq, Repr

/-- How many statements a line stands for. -/
def Line.size : Line → Nat
  | .label _ => 0
  | .bnz _ _ _ => 1
  | .code c => (c.expansion 0).length

/-- The labels of the lines and the indexes they name, for lines that begin at index `pos`: a label "names the next
statement" (30_encoding.md R99). DESIGN CHOICE (log 18): a label that no statement follows, which R99 leaves open, names
the index past the last statement, so that a branch to it ends the host program. Of two definitions of a label the first
counts (log 18). -/
def labels (pos : Nat) : List Line → List (String × Nat)
  | [] => []
  | .label name :: ls => (name, pos) :: labels pos ls
  | .bnz h mask name :: ls => labels (pos + (Line.bnz h mask name).size) ls
  | .code c :: ls => labels (pos + (Line.code c).size) ls

/-- The statements of the lines, for lines that begin at index `pos`; none if a branch names no label. -/
def resolve (env : List (String × Nat)) (pos : Nat) : List Line → Option (List Stmt)
  | [] => some []
  | .label _ :: ls => resolve env pos ls
  | .bnz h mask name :: ls => do
    let target ← env.lookup name
    let rest ← resolve env (pos + 1) ls
    return .bnz h mask target :: rest
  | .code c :: ls => do
    let rest ← resolve env (pos + (c.expansion pos).length) ls
    return c.expansion pos ++ rest

/-- The host program that the lines stand for (30_encoding.md R99, R100). -/
def assemble (ls : List Line) : Option (List Stmt) := resolve (labels 0 ls) 0 ls

end Sys2Proof.Machine.Asm
end

