-- ==== Sys2Proof/Safety.lean ====
section
/-! DEFINITION. The terms the claims are stated in: the machine's invariant, frames, the end of a run, and a run in
which no command was lost or refused. -/

namespace Sys2Proof.Machine

/-- The variables of a host stand in strictly rising order. -/
def HostAgent.rising (h : HostAgent) : Prop := h.vars.Pairwise fun a b => a.1 < b.1

/-- What holds at reset and every step keeps. -/
structure Consistent (s : State) : Prop where
  /-- N_HOSTS ≥ 1 (00_scope.md R9). -/
  some_host : s.hosts ≠ []
  /-- Codes 5..15 are never produced (60_exceptions.md R230). -/
  err_legal : s.err.toNat ≤ 4
  /-- ERR is 0 while BUSY = 1 (10_state.md R25). -/
  busy_err : s.busy = true → s.err = 0
  /-- A pending command word is what CMD reads back (10_state.md R24, R33). -/
  busy_cmd : s.busy = true → s.p.cmd = s.cmdLast
  /-- KSV = 1 when RKF holds a schedule a KEYEXP produced (10_state.md R25, R31). -/
  schedule_built : s.ksv = true → ∃ mk, s.rkf = expand mk
  /-- Every host's variables are in canonical form. -/
  vars_rising : ∀ h ∈ s.hosts, h.rising

/-- From `s` to `t` nothing has changed but the registers listed in `changed`: every other register of the window
(RKF and the ROM windows among them), the latch P, the hosts, the events to come and the count of free values. The
flags of STATUS are stated beside it where STATUS is listed. -/
structure Frame (changed : List Reg) (s t : State) : Prop where
  regs : ∀ r, r ∉ changed → regValue t r = regValue s r
  latch : t.p = s.p
  draws : t.draws = s.draws
  hosts : t.hosts = s.hosts
  schedule : t.schedule = s.schedule

/-- A completion has set ERR to `code` and cleared BUSY, and left OVR (44_cipher_engine.md R202). -/
def Completes (code : BitVec 4) (s t : State) : Prop := t.err = code ∧ t.busy = false ∧ t.ovr = s.ovr

/-- `n` steps, stopping at the first fault or refusal. -/
def runSteps : Nat → State → Result
  | 0, s => .next s
  | n + 1, s =>
    match step s with
    | .next t => runSteps n t
    | .fault f => .fault f
    | .refused r => .refused r

/-- The host has executed its last statement (70_reset_and_hazards.md R278). -/
def HostAgent.finished (h : HostAgent) : Prop := h.prog.length ≤ h.pc

/-- The run is final: every host program has executed its last statement, and BUSY = 0 (70_reset_and_hazards.md R278). -/
def Final (s : State) : Prop := (∀ h ∈ s.hosts, h.finished) ∧ s.busy = false

/-- No command has been dropped since OVR was last cleared, and the last completed command raised no error
(60_exceptions.md R230, R234; 44_cipher_engine.md R201). -/
def NothingLost (s : State) : Prop := s.ovr = false ∧ s.err = 0

end Sys2Proof.Machine
end

