-- ==== Sys2Proof/Certificates/Slice0/Obligations.lean ====
section
/-! DEFINITION. The statements for the provers. Each docstring names the rule of spec/ it formalises. -/

open Sys2Proof Sys2Proof.Machine

/-! Command words -/

/-- Decoding and encoding agree in both directions: a word decodes to a command exactly when the command is well
formed and the word is its encoding (30_encoding.md R90, R93, R94). -/
def Obligations.DecodeInvertsEncode : Prop :=
  ∀ (i : Instr) (w : Word), decode w = .ok i ↔ (i.wellFormed = true ∧ encode i = w)

/-- 30_encoding.md R95. The illegal words are those with RSV ≠ 0, those with OPC in 0x04..0x0F or 0x16..0xFF, and those
with an assigned OPC other than 0x01..0x03 and LEN ≠ 0. Each completes with ERR = 4 and no other effect. -/
def Obligations.IllegalWordsRaiseIllegalCommand : Prop :=
  (∀ w : Word, (∃ e, decode w = .error e) ↔
    (w.toNat / 2 ^ 16 ≠ 0 ∨
      (4 ≤ w.toNat % 2 ^ 8 ∧ w.toNat % 2 ^ 8 ≤ 0x0F) ∨ 0x16 ≤ w.toNat % 2 ^ 8 ∨
      (¬ (1 ≤ w.toNat % 2 ^ 8 ∧ w.toNat % 2 ^ 8 ≤ 3) ∧ w.toNat / 2 ^ 8 % 2 ^ 8 ≠ 0))) ∧
  ∀ (s : State) (ts : List Turn) (e : DecodeError),
    s.schedule = .engine :: ts → s.busy = true → decode s.p.cmd = .error e →
    step s = .next { s with err := 4, busy := false, schedule := ts }

/-- 30_encoding.md R97. The usual command words, encoded and decoded, and the errors of the two with a wrong length. -/
def Obligations.UsualCommandWords : Prop :=
  (∀ p ∈ [(Instr.nop, 0x00000000#32), (.keyexp 16, 0x00001001#32), (.enc 16, 0x00001002#32), (.dec 16, 0x00001003#32),
      (.tau, 0x00000010#32), (.lin, 0x00000011#32), (.link, 0x00000012#32), (.trnd, 0x00000013#32),
      (.tkey, 0x00000014#32), (.frnd, 0x00000015#32), (.keyexp 15, 0x00000F01#32), (.enc 17, 0x00001102#32)],
    decode p.2 = .ok p.1 ∧ encode p.1 = p.2) ∧
  ∀ s : State,
    (∃ t, exec (.keyexp 15) s = .next t ∧ t.err = ErrorCode.invalidKeyLength.code) ∧
    (∃ t, exec (.enc 17) s = .next t ∧ t.err = ErrorCode.invalidBlockLength.code)

/-! The step -/

/-- A step runs the decoded command (44_cipher_engine.md R202): while BUSY = 1, when the engine has the turn, or when no
event is left (log 2), and P.cmd decodes to `i`, the step is `exec i` in the state whose turn has been taken. -/
def Obligations.StepRunsDecodedCommand : Prop :=
  ∀ (s : State) (i : Instr), s.busy = true → decode s.p.cmd = .ok i →
    (s.schedule = [] → step s = exec i s) ∧
    ∀ ts, s.schedule = .engine :: ts → step s = exec i { s with schedule := ts }

/-- When no event is left, the engine has the turn (70_reset_and_hazards.md R276, weak fairness; the form is the model's
choice, log 2): the step is what it would be with one engine turn to come, so every statement about that turn holds
there too. -/
def Obligations.EmptyScheduleIsEngineTurn : Prop :=
  ∀ s : State, s.schedule = [] → step s = step { s with schedule := [.engine] }

/-- A command word issued to an idle engine runs when the engine next has the turn: the host's turn issues it
(44_cipher_engine.md R200), the engine's completes it (R202), and between them stand only the values latched. -/
def Obligations.IssuedWordRunsAtNextEngineTurn : Prop :=
  ∀ (s : State) (k : Nat) (h : HostAgent) (ts : List Turn) (i : Instr) (w : Word),
    s.busy = false → s.schedule = .host k :: .engine :: ts → s.hosts[k]? = some h →
    h.prog[h.pc]? = some (.memWrite (busAddr 0x008) 4 w) → decode w = .ok i →
    ∃ t, step s = .next t ∧ t.busy = true ∧ t.schedule = .engine :: ts ∧
      t.p = { cmd := w, key := s.key, din := s.din, arg := s.arg, strat := s.strat } ∧
      step t = exec i { t with schedule := ts }

/-- 60_exceptions.md R245. While BUSY = 0 the engine holds its state: its turn passes and nothing else changes (that the
turn passes is the model's choice, logs 2 and 12). -/
def Obligations.IdleEngineHoldsState : Prop :=
  ∀ s : State, s.busy = false →
    (s.schedule = [] → step s = .next s) ∧
    ∀ ts, s.schedule = .engine :: ts → step s = .next { s with schedule := ts }

/-- 60_exceptions.md R231, with the codes of R230. The outcome code of every completion, as a function of the command word
and KSV alone, in the order of priority: IllegalCommand, then the length errors, then NoKeySchedule. The word stays
readable in CMD. -/
def Obligations.OutcomeCodeByPriority : Prop :=
  ∀ (s : State) (ts : List Turn), s.schedule = .engine :: ts → s.busy = true →
    ∃ t, step s = .next t ∧ t.busy = false ∧ t.cmdLast = s.cmdLast ∧
      t.err =
        (let opc := s.p.cmd.toNat % 2 ^ 8
         let len := s.p.cmd.toNat / 2 ^ 8 % 2 ^ 8
         if s.p.cmd.toNat / 2 ^ 16 ≠ 0 then 4#4
         else if opc = 1 then (if len = 16 then 0#4 else 1#4)
         else if opc = 2 ∨ opc = 3 then
           (if len ≠ 16 then 2#4 else if s.ksv = false then 3#4 else 0#4)
         else if opc = 0 ∨ (0x10 ≤ opc ∧ opc ≤ 0x15) then (if len = 0 then 0#4 else 4#4)
         else 4#4)

/-- 60_exceptions.md R232. An error is precise: a completion that ends with a code other than 0 has changed ERR and BUSY
and nothing else. -/
def Obligations.ErrorsArePrecise : Prop :=
  ∀ (s t : State) (ts : List Turn), s.schedule = .engine :: ts → s.busy = true →
    step s = .next t → t.err ≠ 0 →
    t = { s with err := t.err, busy := false, schedule := ts }

/-! Issue, overrun, reset -/

/-- 44_cipher_engine.md R200. A host write to CMD while BUSY = 0 is accepted, whatever the word: CMD reads it back, the
operands are latched, ERR is 0 and BUSY is 1; DOUT, RKF, KSV, OVR and every other register are unchanged. -/
def Obligations.AcceptedIssueLatchesOperands : Prop :=
  ∀ (s : State) (k : Nat) (h : HostAgent) (ts : List Turn) (w : Word),
    s.busy = false → s.schedule = .host k :: ts → s.hosts[k]? = some h →
    h.prog[h.pc]? = some (.memWrite (Config.sm4Base + 0x008) 4 w) →
    ∃ t, step s = .next t ∧ t.cmdLast = w ∧ t.p.cmd = w ∧
      t.p.key = s.key ∧ t.p.din = s.din ∧ t.p.arg = s.arg ∧ t.p.strat = s.strat ∧
      t.err = 0 ∧ t.busy = true ∧ t.ksv = s.ksv ∧ t.ovr = s.ovr ∧
      (∀ r : Reg, r ≠ .cmd → r ≠ .status → regValue t r = regValue s r) ∧
      t.draws = s.draws ∧ t.schedule = ts ∧ t.hosts = s.hosts.set k { h with pc := h.pc + 1 }

/-- 44_cipher_engine.md R201. A host write to CMD while BUSY = 1 sets OVR and changes nothing else, and OVR goes back to 0
only at reset or at a host write to STATUS (offset 0x00C) with bit 2 set. -/
def Obligations.OverrunIsDroppedAndSticky : Prop :=
  (∀ (s : State) (k : Nat) (h : HostAgent) (ts : List Turn) (w : Word),
    s.busy = true → s.schedule = .host k :: ts → s.hosts[k]? = some h →
    h.prog[h.pc]? = some (.memWrite (Config.sm4Base + 0x008) 4 w) →
    step s = .next { s with
      ovr := true, schedule := ts, hosts := s.hosts.set k { h with pc := h.pc + 1 } }) ∧
  ∀ s t : State, s.ovr = true → step s = .next t → t.ovr = false →
    (∃ ts, s.schedule = .reset :: ts) ∨
    ∃ k ts h addr v, s.schedule = .host k :: ts ∧ s.hosts[k]? = some h ∧
      h.prog[h.pc]? = some (.memWrite addr 4 v) ∧ (addr - Config.sm4Base).toNat = 0x00C ∧ v.getLsbD 2 = true

/-- 70_reset_and_hazards.md R260; 10_state.md R38; 60_exceptions.md R236. Asserted reset is the next event whatever else
is pending: every register but RKF goes to its reset value, a pending command is gone, and the hosts, which the engine
does not own, and the events to come are as before (log 13). Of RKF nothing is said: it holds new free values, which moves
the count of them on (log 3). -/
def Obligations.ResetComesFirstAndClears : Prop :=
  ∀ s : State, ∃ t, step (assertReset s) = .next t ∧
    regValue t .id = 0x534D3401 ∧ regValue t .config = 0 ∧ regValue t .cmd = 0 ∧ regValue t .status = 0 ∧
    (∀ i : Fin 4, regValue t (.key i) = 0 ∧ regValue t (.din i) = 0 ∧ regValue t (.dout i) = 0) ∧
    regValue t .arg = 0 ∧ t.busy = false ∧ t.ksv = false ∧
    t.hosts = s.hosts ∧ t.schedule = s.schedule ∧ t.draws = s.draws + 1

/-! Whole-machine rules -/

/-- 70_reset_and_hazards.md R261; 10_state.md R30, R31. Reset is the only event that clears KSV. Only a completing KEYEXP
with LEN = 16 sets it, or (but for reset) changes RKF; that completion leaves RKF = expand(P.key). -/
def Obligations.OnlyKeyexpBuildsAndOnlyResetClearsSchedule : Prop :=
  ∀ s t : State, step s = .next t →
    (s.ksv = true → t.ksv = false → ∃ ts, s.schedule = .reset :: ts) ∧
    ((t.rkf ≠ s.rkf ∨ (s.ksv = false ∧ t.ksv = true)) →
      (∃ ts, s.schedule = .reset :: ts) ∨
      (s.busy = true ∧ t.busy = false ∧ t.err = 0 ∧
        decode s.p.cmd = .ok (.keyexp 16) ∧ t.rkf = expand s.p.key ∧ t.ksv = true))

/-- 10_state.md R29, R39. DOUT changes only at reset and at the completion of ENC, DEC or a function command; a function
command leaves DOUT1..DOUT3. -/
def Obligations.OnlyCompletionsWriteDout : Prop :=
  ∀ s t : State, step s = .next t → t.dout ≠ s.dout →
    (∃ ts, s.schedule = .reset :: ts) ∨
    (s.busy = true ∧ t.busy = false ∧ t.err = 0 ∧
      ((decode s.p.cmd = .ok (.enc 16) ∧ s.ksv = true) ∨ (decode s.p.cmd = .ok (.dec 16) ∧ s.ksv = true) ∨
        (∃ i ∈ [Instr.tau, .lin, .link, .trnd, .tkey, .frnd], decode s.p.cmd = .ok i ∧
          t.dout[1] = s.dout[1] ∧ t.dout[2] = s.dout[2] ∧ t.dout[3] = s.dout[3])))

/-- 10_state.md R26, R23, R39. KEY0..KEY3, DIN0..DIN3, ARG and CONFIG change only at reset and at a host write to that very
register's offset. -/
def Obligations.OnlyHostsWriteOperandRegisters : Prop :=
  ∀ (s t : State) (r : Reg), step s = .next t →
    ((∃ i, r = .key i) ∨ (∃ i, r = .din i) ∨ r = .arg ∨ r = .config) →
    regValue t r ≠ regValue s r →
    (∃ ts, s.schedule = .reset :: ts) ∨
    ∃ k ts h addr v, s.schedule = .host k :: ts ∧ s.hosts[k]? = some h ∧
      h.prog[h.pc]? = some (.memWrite addr 4 v) ∧ (addr - Config.sm4Base).toNat = r.offset

/-- 10_state.md R35. Each flag has its writers only: BUSY is set by an accepted issue and cleared by a completion or reset,
OVR is set by a CMD write while BUSY = 1, and ERR is written by a completion, an accepted issue (to 0) and reset. (KSV:
`OnlyKeyexpBuildsAndOnlyResetClearsSchedule`; the clearing of OVR: `OverrunIsDroppedAndSticky`.) -/
def Obligations.StatusFlagsHaveTheirWriters : Prop :=
  ∀ s t : State, step s = .next t →
    let cmdWrite := ∃ k ts h addr v, s.schedule = .host k :: ts ∧ s.hosts[k]? = some h ∧
      h.prog[h.pc]? = some (.memWrite addr 4 v) ∧ (addr - Config.sm4Base).toNat = 0x008
    let engineTurn := s.schedule = [] ∨ ∃ ts, s.schedule = .engine :: ts
    let reset := ∃ ts, s.schedule = .reset :: ts
    (s.busy = false → t.busy = true → cmdWrite) ∧
    (s.busy = true → t.busy = false → reset ∨ engineTurn) ∧
    (s.ovr = false → t.ovr = true → s.busy = true ∧ cmdWrite) ∧
    (t.err ≠ s.err →
      reset ∨ (s.busy = true ∧ t.busy = false ∧ engineTurn) ∨
        (s.busy = false ∧ t.busy = true ∧ t.err = 0 ∧ cmdWrite))

/-- 10_state.md R33; 70_reset_and_hazards.md R270, R273. From an accepted issue to its completion, whatever the hosts do,
the latch, the CMD readback, DOUT, RKF, KSV and ERR keep their values. -/
def Obligations.PendingCommandIsUndisturbed : Prop :=
  ∀ s t : State, s.busy = true → step s = .next t → t.busy = true →
    t.p = s.p ∧ t.cmdLast = s.cmdLast ∧ t.dout = s.dout ∧ t.rkf = s.rkf ∧ t.ksv = s.ksv ∧ t.err = s.err

/-- 44_cipher_engine.md R211; 10_state.md R33. The results of a completion depend only on P, RKF, KSV (and, for the words
a command does not write, the old DOUT): two states that agree on these complete alike, whatever their operand registers,
CONFIG, OVR and hosts hold. -/
def Obligations.ResultsDependOnlyOnLatchAndSchedule : Prop :=
  ∀ (s u : State) (i : Instr), u.p = s.p → u.rkf = s.rkf → u.ksv = s.ksv → u.dout = s.dout →
    ∃ t v, exec i s = .next t ∧ exec i u = .next v ∧
      v.dout = t.dout ∧ v.rkf = t.rkf ∧ v.ksv = t.ksv ∧ v.err = t.err ∧ v.busy = t.busy

/-- 43_round_function.md R186. The strategy held in P.strat is invisible in every result of every command. -/
def Obligations.StrategyIsInvisibleInResults : Prop :=
  ∀ (s : State) (i : Instr) (st : Strategy), ∃ t, exec i s = .next t ∧
    exec i { s with p := { s.p with strat := st } } = .next { t with p := { t.p with strat := st } }

/-- 10_state.md R36. While KSV = 0 the unspecified contents of RKF reach nothing: two states that differ in RKF alone step
to the same outcome, but for RKF, and to the same RKF when the step has set KSV. Of host reads this holds by the model's
choice (log 4): a read of RK0..RK31 while KSV = 0 returns a free value of its own and not the contents of RKF, where R36
says only that the value is unspecified and that the contents never reach DOUT. -/
def Obligations.UnspecifiedRoundKeysReachNoResult : Prop :=
  ∀ (s : State) (rk : Vector Word 32), s.ksv = false →
    (∀ t, step s = .next t → ∃ rk', step { s with rkf := rk } = .next { t with rkf := rk' } ∧
      (t.ksv = true → rk' = t.rkf)) ∧
    (∀ f, step s = .fault f → step { s with rkf := rk } = .fault f) ∧
    (∀ f, step s = .refused f → step { s with rkf := rk } = .refused f)

/-- Every step keeps the invariant: ERR a legal code and 0 while BUSY = 1, the pending word what CMD reads, KSV = 1 only
over a schedule that `expand` made, at least one host (10_state.md R24, R25, R31; 60_exceptions.md R230). -/
def Obligations.StepKeepsInvariant : Prop :=
  ∀ s t : State, Consistent s → step s = .next t → Consistent t

/-- The invariant holds right after reset (10_state.md R38; log 8 for the one host). -/
def Obligations.ResetMeetsInvariant : Prop := Consistent State.reset

/-- 70_reset_and_hazards.md R276. A pending command completes unless reset intervenes: in a run as long as the events to
come, and one step more (log 2), some state has BUSY = 0. -/
def Obligations.PendingCommandCompletes : Prop :=
  ∀ s t : State, s.busy = true → Turn.reset ∉ s.schedule →
    runSteps (s.schedule.length + 1) s = .next t →
    ∃ (n : Nat) (u : State), n ≤ s.schedule.length + 1 ∧
      runSteps n s = .next u ∧ u.busy = false

/-- 70_reset_and_hazards.md R278. A final state is final for good, reset apart: an event changes nothing in it but that it
is no longer to come (logs 1, 2 and 12). -/
def Obligations.FinalStateIsStable : Prop :=
  ∀ s : State, Final s → (∀ ts, s.schedule ≠ .reset :: ts) →
    step s = .next { s with schedule := s.schedule.tail }

/-! The register window -/

/-- 10_state.md R20, R28. Nothing aliases: every register has its own offset in the window, a multiple of 4, and that
offset names that register and no other. -/
def Obligations.RegisterMapHasNoAlias : Prop :=
  (∀ r : Reg, Reg.ofOffset r.offset = some r ∧ r.offset % 4 = 0 ∧ r.offset ≤ 0x1FFC) ∧
  ∀ (off : Nat) (r : Reg), off % 4 = 0 → off ≤ 0x1FFC → Reg.ofOffset off = some r → r.offset = off

/-- 20_memory.md R64. The reserved slots are the six ranges, each reads 0, and a write to one is ignored. -/
def Obligations.ReservedSlotsReadZeroIgnoreWrites : Prop :=
  ∀ off : Nat, off % 4 = 0 → off ≤ 0x1FFC →
    let reserved := (0x034 ≤ off ∧ off ≤ 0x03C) ∨ (0x050 ≤ off ∧ off ≤ 0x0FC) ∨ (0x180 ≤ off ∧ off ≤ 0x1FC) ∨
      (0x210 ≤ off ∧ off ≤ 0x27C) ∨ (0x300 ≤ off ∧ off ≤ 0x3FC) ∨ (0x500 ≤ off ∧ off ≤ 0x0FFC)
    ((∀ r : Reg, r.offset ≠ off) ↔ reserved) ∧
    (reserved → ∀ (s : State) (v : Word), readOffset s off = (0, s) ∧ writeOffset s off v = s)

/-- 20_memory.md R65. A host write by access kind: RO and ROM registers ignore it, RW registers take it (CONFIG bit 0
only), STATUS clears OVR if v[2] = 1 and does nothing else, CMD is an issue attempt. -/
def Obligations.HostWritesActByAccessKind : Prop :=
  ∀ (s : State) (v : Word),
    (∀ r : Reg, (r = .id ∨ (∃ i, r = .dout i) ∨ (∃ i, r = .rk i) ∨ (∃ i, r = .fk i) ∨ (∃ i, r = .ck i) ∨
        (∃ w, r = .sboxw w) ∨ ∃ j b, r = .ct j b) → writeOffset s r.offset v = s) ∧
    (∀ r : Reg, ((∃ i, r = .key i) ∨ (∃ i, r = .din i) ∨ r = .arg) →
      regValue (writeOffset s r.offset v) r = v ∧ Frame [r] s (writeOffset s r.offset v)) ∧
    (regValue (writeOffset s 0x004 v) .config = v &&& 1 ∧ Frame [.config] s (writeOffset s 0x004 v)) ∧
    writeOffset s 0x00C v = { s with ovr := s.ovr && !v.getLsbD 2 } ∧
    writeOffset s 0x008 v = (if s.busy then overrun s else acceptIssue s v)

/-- 20_memory.md R62; the model's stops are logs 9 and 10. A host access of another width than 4 bytes, or at an offset
that is not a multiple of 4, is refused; an address outside the window faults. -/
def Obligations.AccessesNotAdmittedAreRefused : Prop :=
  ∀ (s : State) (k : Nat) (h : HostAgent) (ts : List Turn) (addr : Word) (width n : Nat) (v : Word),
    s.schedule = .host k :: ts → s.hosts[k]? = some h →
    (h.prog[h.pc]? = some (.memWrite addr width v) ∨ h.prog[h.pc]? = some (.memRead n addr width)) →
    ((addr - Config.sm4Base).toNat < 0x2000 → (width ≠ 4 ∨ (addr - Config.sm4Base).toNat % 4 ≠ 0) →
      step s = .refused .accessNotAdmitted) ∧
    (0x2000 ≤ (addr - Config.sm4Base).toNat → step s = .fault .outsideWindow)

/-- 30_encoding.md R98, R99; 20_memory.md R63, R65. A host's turn at an admitted access does that access and nothing else:
a write acts on the register at the offset, a read puts its value into the host's variable; the host goes on to its next
statement. -/
def Obligations.HostTurnDoesOneBusAccess : Prop :=
  ∀ (s : State) (k : Nat) (h : HostAgent) (ts : List Turn) (off : Nat),
    s.schedule = .host k :: ts → s.hosts[k]? = some h → off % 4 = 0 → off ≤ 0x1FFC →
    (∀ v, h.prog[h.pc]? = some (.memWrite (Config.sm4Base + BitVec.ofNat 32 off) 4 v) →
      step s = .next { writeOffset { s with schedule := ts } off v with
        hosts := s.hosts.set k { h with pc := h.pc + 1 } }) ∧
    (∀ n, h.prog[h.pc]? = some (.memRead n (Config.sm4Base + BitVec.ofNat 32 off) 4) →
      ∃ t h', step s = .next t ∧ t.hosts[k]? = some h' ∧ h'.pc = h.pc + 1 ∧ h'.prog = h.prog ∧
        h'.var k n = (readOffset s off).1 ∧ (∀ m, m ≠ n → h'.var k m = h.var k m) ∧
        t = { s with schedule := ts, draws := (readOffset s off).2.draws, hosts := s.hosts.set k h' })

/-- 30_encoding.md R99. `wr REG, v` writes that register, `cmd` issues the command's word, and `rd hN, REG` puts that
register's value into the host's variable, wherever the platform has placed the window. -/
def Obligations.AssembledStatementsReachTheirRegisters : Prop :=
  ∀ (s : State) (k : Nat) (h : HostAgent) (ts : List Turn) (r : Reg),
    s.schedule = .host k :: ts → s.hosts[k]? = some h →
    (∀ v, h.prog[h.pc]? = some (Asm.wr r v) →
      step s = .next { writeReg { s with schedule := ts } r v with
        hosts := s.hosts.set k { h with pc := h.pc + 1 } }) ∧
    (∀ i, h.prog[h.pc]? = some (Asm.cmd i) →
      step s = .next { issue { s with schedule := ts } (encode i) with
        hosts := s.hosts.set k { h with pc := h.pc + 1 } }) ∧
    (∀ n, h.prog[h.pc]? = some (Asm.rd n r) →
      ∃ t h', step s = .next t ∧ t.hosts[k]? = some h' ∧ h'.pc = h.pc + 1 ∧ h'.var k n = (readReg s r).1)

/-- 20_memory.md R63, R68; 10_state.md R22 to R32, R36. A read returns the register's value and changes nothing; only a
read of RK0..RK31 while KSV = 0 returns a free value, and then only the count of free values moves (log 4). -/
def Obligations.ReadsReturnValueWithoutSideEffect : Prop :=
  ∀ (s : State) (r : Reg),
    ((s.ksv = true ∨ ∀ i, r ≠ .rk i) → readOffset s r.offset = (regValue s r, s)) ∧
    (∀ i, r = .rk i → s.ksv = false →
      readOffset s r.offset = (Config.rkDraw s.draws, { s with draws := s.draws + 1 }))

/-- 10_state.md R25. The fields of STATUS as a host reads it: BUSY, KSV, OVR in bits 0 to 2, ERR in bits 7 to 4, every
other bit 0. -/
def Obligations.StatusFieldsReadBack : Prop :=
  ∀ (s : State) (n : Nat), n < 32 →
    (regValue s .status).getLsbD n =
      (if n = 0 then s.busy else if n = 1 then s.ksv else if n = 2 then s.ovr
       else if 4 ≤ n ∧ n ≤ 7 then s.err.getLsbD (n - 4) else false)

/-- 10_state.md R22. ID reads 0x534D3401, whose fields are 0x534D34 and 0x01, and a write to it is ignored. -/
def Obligations.IdentityRegisterIsConstant : Prop :=
  ∀ (s : State) (v : Word),
    readOffset s 0x000 = (0x534D3401, s) ∧ writeOffset s 0x000 v = s ∧
    (readOffset s 0x000).1.extractLsb' 8 24 = 0x534D34#24 ∧ (readOffset s 0x000).1.extractLsb' 0 8 = 0x01#8

/-- 10_state.md R32; 40_constants.md R126, R129. What the ROM windows show, in every state: byte j of SBOXWw is S[4w+j],
FKi is FK[i], CKi is CK[i], and CT_j_b is L of S[b] in byte position j and zero in the others. -/
def Obligations.RomWindowsShowConstantTables : Prop :=
  ∀ s : State,
    (∀ (w : Fin 64) (j : Nat), j < 4 →
      byteJ (regValue s (.sboxw w)) j = sbox (BitVec.ofNat 8 (4 * w.val + j))) ∧
    (∀ i : Fin 4, regValue s (.fk i) = fk[i]) ∧ (∀ i : Fin 32, regValue s (.ck i) = ck[i]) ∧
    ∀ (j : Fin 4) (b : Fin 256), ∃ y : Word, regValue s (.ct j b) = diffL y ∧
      ∀ n : Nat, n < 4 → byteJ y n = if n = j.val then sbox (BitVec.ofNat 8 b.val) else 0

/-- 30_encoding.md R99. `bnz hN, mask, label` goes to the label if hN & mask ≠ 0 and else on; it touches no register. -/
def Obligations.HostBranchFollowsMask : Prop :=
  ∀ (s : State) (k : Nat) (h : HostAgent) (ts : List Turn) (n target : Nat) (mask : Word),
    s.schedule = .host k :: ts → s.hosts[k]? = some h → h.prog[h.pc]? = some (.bnz n mask target) →
    step s = .next { s with
      schedule := ts
      hosts := s.hosts.set k { h with pc := if h.var k n &&& mask = 0 then h.pc + 1 else target } }

/-! The functions -/

/-- 41_substitution_diffusion.md R141. τ is lane-wise, with the same table in every lane, and a bijection on words. -/
def Obligations.TauIsLaneWiseBijection : Prop :=
  (∀ (x : Word) (j : Nat), j < 4 → byteJ (tau x) j = sbox (byteJ x j)) ∧ Function.Bijective tau

/-- 41_substitution_diffusion.md R145. L and L′ are linear over XOR, fix 0 and all ones, commute with every rotation, and
are bijections on words. -/
def Obligations.DiffusionIsLinearRotationInvariantBijection : Prop :=
  ∀ f ∈ [diffL, diffL'],
    (∀ a b, f (a ^^^ b) = f a ^^^ f b) ∧ f 0 = 0 ∧ f 0xffffffff = 0xffffffff ∧
    (∀ (b : Word) (n : Nat), n < 32 → f (rotl b n) = rotl (f b) n) ∧ Function.Bijective f

/-- 43_round_function.md R185. The table-driven strategy and the direct strategy agree on every word, so F is the same by
either. -/
def Obligations.TableStrategyEqualsDirect : Prop :=
  (∀ x : Word, tTable x = tDirect x) ∧
  ∀ x0 x1 x2 x3 rk : Word, roundF .table x0 x1 x2 x3 rk = roundF .direct x0 x1 x2 x3 rk

/-- 40_constants.md R127. CT[j][b] is CT[0][b] rotated left by 32 − 8·j, for j = 1..3; and the four values at b = 0. -/
def Obligations.CombinedTableRowsAreRotations : Prop :=
  (∀ (j : Nat) (b : Byte), 1 ≤ j → j ≤ 3 → ct j b = rotl (ct 0 b) (32 - 8 * j)) ∧
  ct 0 0 = 0x8ed55b5b ∧ ct 1 0 = 0x5b8ed55b ∧ ct 2 0 = 0x5b5b8ed5 ∧ ct 3 0 = 0xd55b5b8e

/-- 42_key_schedule.md R163, from the whitened words of R162. `expand` is the recurrence over K[0..35] of the spec, and RK[i] = K[i+4]. -/
def Obligations.ExpandFollowsKeyRecurrence : Prop :=
  ∀ mk : Vector Word 4, ∃ K : Nat → Word,
    (∀ i : Fin 4, K i.val = mk[i] ^^^ fk[i]) ∧
    (∀ i : Fin 32, K (i.val + 4) =
      K i.val ^^^ tPrime (K (i.val + 1) ^^^ K (i.val + 2) ^^^ K (i.val + 3) ^^^ ck[i])) ∧
    ∀ i : Fin 32, (expand mk)[i] = K (i.val + 4)

/-- The source's known-answer vector (95_test_vectors.md V-KAT; 40_constants.md R125), under either strategy, and its
decryption. -/
def Obligations.KnownAnswerVector : Prop :=
  ∀ st : Strategy,
    let kat : Vector Word 4 := #v[0x01234567, 0x89abcdef, 0xfedcba98, 0x76543210]
    let out : Vector Word 4 := #v[0x681edf34, 0xd206965e, 0x86b3e94f, 0x536e4246]
    process kat (expand kat) .encrypt st = out ∧ process out (expand kat) .decrypt st = kat

/-- 44_cipher_engine.md R210. For every schedule and block, DEC of the result of ENC gives the block back, and ENC of the
result of DEC too, by any strategy for either command. Stated of the commands: the second runs in any state that latches
the first one's DOUT and has its RKF. -/
def Obligations.DecryptionInvertsEncryption : Prop :=
  ∀ s u : State, s.ksv = true → u.ksv = true → u.rkf = s.rkf →
    (∀ t, exec (.enc 16) s = .next t → u.p.din = t.dout → ∃ v, exec (.dec 16) u = .next v ∧ v.dout = s.p.din) ∧
    (∀ t, exec (.dec 16) s = .next t → u.p.din = t.dout → ∃ v, exec (.enc 16) u = .next v ∧ v.dout = s.p.din)

/-! The commands: each completes in every state that meets the hypotheses, with its result and its frame -/

/-- NOP (44_cipher_engine.md R208): ERR and BUSY are cleared, KSV and OVR stay, and nothing else changes. -/
def Obligations.NopOnlyCompletes : Prop :=
  ∀ s : State, ∃ t, exec .nop s = .next t ∧ Completes 0 s t ∧ t.ksv = s.ksv ∧ Frame [.status] s t

/-- TAU (41_substitution_diffusion.md R150): every byte of DOUT0 is the substitution of that byte of P.din[0]. -/
def Obligations.TauWritesSubstitutedBytes : Prop :=
  ∀ s : State, ∃ t, exec .tau s = .next t ∧ Completes 0 s t ∧ t.ksv = s.ksv ∧ Frame [.status, .dout 0] s t ∧
    ∀ j : Nat, j < 4 → byteJ (regValue t (.dout 0)) j = sbox (byteJ s.p.din[0] j)

/-- LIN (41_substitution_diffusion.md R151, R143, R142): bit k of DOUT0 is the XOR of the bits k, k − 2, k − 10, k − 18 and
k − 24 (mod 32) of P.din[0]. -/
def Obligations.LinWritesDiffusedBits : Prop :=
  ∀ s : State, ∃ t, exec .lin s = .next t ∧ Completes 0 s t ∧ t.ksv = s.ksv ∧ Frame [.status, .dout 0] s t ∧
    ∀ k : Nat, k < 32 → (regValue t (.dout 0)).getLsbD k =
      (s.p.din[0].getLsbD k ^^ s.p.din[0].getLsbD ((k + 30) % 32) ^^ s.p.din[0].getLsbD ((k + 22) % 32) ^^
        s.p.din[0].getLsbD ((k + 14) % 32) ^^ s.p.din[0].getLsbD ((k + 8) % 32))

/-- LINK (41_substitution_diffusion.md R152, R144, R142): bit k of DOUT0 is the XOR of the bits k, k − 13 and k − 23
(mod 32) of P.din[0]. -/
def Obligations.LinkWritesKeyDiffusedBits : Prop :=
  ∀ s : State, ∃ t, exec .link s = .next t ∧ Completes 0 s t ∧ t.ksv = s.ksv ∧ Frame [.status, .dout 0] s t ∧
    ∀ k : Nat, k < 32 → (regValue t (.dout 0)).getLsbD k =
      (s.p.din[0].getLsbD k ^^ s.p.din[0].getLsbD ((k + 19) % 32) ^^ s.p.din[0].getLsbD ((k + 9) % 32))

/-- TRND (43_round_function.md R189, R180): DOUT0 is L of the substituted word, whichever strategy P.strat holds. -/
def Obligations.TrndWritesRoundComposite : Prop :=
  ∀ s : State, ∃ t, exec .trnd s = .next t ∧ Completes 0 s t ∧ t.ksv = s.ksv ∧ Frame [.status, .dout 0] s t ∧
    ∃ y : Word, (∀ j : Nat, j < 4 → byteJ y j = sbox (byteJ s.p.din[0] j)) ∧
      regValue t (.dout 0) = y ^^^ rotl y 2 ^^^ rotl y 10 ^^^ rotl y 18 ^^^ rotl y 24

/-- TKEY (42_key_schedule.md R167, R160): DOUT0 is L′ of the substituted word. -/
def Obligations.TkeyWritesKeyComposite : Prop :=
  ∀ s : State, ∃ t, exec .tkey s = .next t ∧ Completes 0 s t ∧ t.ksv = s.ksv ∧ Frame [.status, .dout 0] s t ∧
    ∃ y : Word, (∀ j : Nat, j < 4 → byteJ y j = sbox (byteJ s.p.din[0] j)) ∧
      regValue t (.dout 0) = y ^^^ rotl y 13 ^^^ rotl y 23

/-- FRND (43_round_function.md R190, R181): DOUT0 is x0 XOR T of x1 ⊕ x2 ⊕ x3 ⊕ rk, whichever strategy P.strat holds. -/
def Obligations.FrndWritesRoundFunction : Prop :=
  ∀ s : State, ∃ t, exec .frnd s = .next t ∧ Completes 0 s t ∧ t.ksv = s.ksv ∧ Frame [.status, .dout 0] s t ∧
    ∃ y : Word,
      (∀ j : Nat, j < 4 →
        byteJ y j = sbox (byteJ (s.p.din[1] ^^^ s.p.din[2] ^^^ s.p.din[3] ^^^ s.p.arg) j)) ∧
      regValue t (.dout 0) = s.p.din[0] ^^^ (y ^^^ rotl y 2 ^^^ rotl y 10 ^^^ rotl y 18 ^^^ rotl y 24)

/-- KEYEXP with LEN = 16 (42_key_schedule.md R166, R163): KSV is 1 and RKF holds the words of the key recurrence from
P.key; DOUT and every register but RK0..RK31 and STATUS are unchanged. -/
def Obligations.KeyexpWritesSchedule : Prop :=
  ∀ s : State, ∃ (t : State) (K : Nat → Word), exec (.keyexp 16) s = .next t ∧ Completes 0 s t ∧ t.ksv = true ∧
    Frame (.status :: (List.finRange 32).map .rk) s t ∧
    (∀ i : Fin 4, K i.val = s.p.key[i] ^^^ fk[i]) ∧
    (∀ i : Fin 32, K (i.val + 4) =
      K i.val ^^^ tPrime (K (i.val + 1) ^^^ K (i.val + 2) ^^^ K (i.val + 3) ^^^ ck[i])) ∧
    ∀ i : Fin 32, t.rkf[i] = K (i.val + 4)

/-- KEYEXP with any other LEN (42_key_schedule.md R166): ERR = 1, and RKF, KSV and everything else are unchanged, so an old
schedule stays valid (70_reset_and_hazards.md R274). -/
def Obligations.KeyexpWrongLengthKeepsSchedule : Prop :=
  ∀ (s : State) (len : Nat), len ≠ 16 →
    ∃ t, exec (.keyexp len) s = .next t ∧ Completes 1 s t ∧ t.ksv = s.ksv ∧ Frame [.status] s t

/-- ENC with LEN = 16 and KSV = 1 (44_cipher_engine.md R206, R203 to R205): the 32 rounds of the spec over X[0..35] with
the subkeys in generation order, whichever strategy P.strat holds, and DOUT0..DOUT3 = X35, X34, X33, X32. -/
def Obligations.EncRunsRoundsInGenerationOrder : Prop :=
  ∀ s : State, s.ksv = true → ∃ (t : State) (X : Nat → Word), exec (.enc 16) s = .next t ∧ Completes 0 s t ∧
    t.ksv = s.ksv ∧ Frame [.status, .dout 0, .dout 1, .dout 2, .dout 3] s t ∧
    (∀ i : Fin 4, X i.val = s.p.din[i]) ∧
    (∀ i : Fin 32, X (i.val + 4) =
      X i.val ^^^ diffL (tau (X (i.val + 1) ^^^ X (i.val + 2) ^^^ X (i.val + 3) ^^^ s.rkf[i]))) ∧
    t.dout = #v[X 35, X 34, X 33, X 32]

/-- DEC with LEN = 16 and KSV = 1 (44_cipher_engine.md R207, R203 to R205): the same rounds with the subkeys back to
front, R[i] = RKF[31 − i]. -/
def Obligations.DecRunsRoundsBackToFront : Prop :=
  ∀ s : State, s.ksv = true → ∃ (t : State) (X : Nat → Word), exec (.dec 16) s = .next t ∧ Completes 0 s t ∧
    t.ksv = s.ksv ∧ Frame [.status, .dout 0, .dout 1, .dout 2, .dout 3] s t ∧
    (∀ i : Fin 4, X i.val = s.p.din[i]) ∧
    (∀ i : Fin 32, X (i.val + 4) =
      X i.val ^^^ diffL (tau (X (i.val + 1) ^^^ X (i.val + 2) ^^^ X (i.val + 3) ^^^ s.rkf[i.rev]))) ∧
    t.dout = #v[X 35, X 34, X 33, X 32]

/-- ENC and DEC that raise an error (44_cipher_engine.md R206, R207; 60_exceptions.md R231): LEN ≠ 16 gives code 2 whatever
KSV is, LEN = 16 with KSV = 0 gives code 3; DOUT and everything else are unchanged. -/
def Obligations.BlockCommandErrorsLeaveDout : Prop :=
  ∀ (s : State) (len : Nat), ∀ i ∈ [Instr.enc len, Instr.dec len],
    (len ≠ 16 → ∃ t, exec i s = .next t ∧ Completes 2 s t ∧ t.ksv = s.ksv ∧ Frame [.status] s t) ∧
    (len = 16 → s.ksv = false → ∃ t, exec i s = .next t ∧ Completes 3 s t ∧ t.ksv = s.ksv ∧ Frame [.status] s t)
end

