-- ==== Sys2Proof/Laws/Bits.lean ====
section
/-! SUPPORT. Bits and bytes: rotation bit by bit, and bytes of packed and combined words (00_scope.md R11 to R13;
41_substitution_diffusion.md R142). -/

namespace Sys2Proof.Machine

/-- Bit k of `rotl(x, n)` is bit (k − n) mod 32 of x (41_substitution_diffusion.md R142). -/
theorem getLsbD_rotl (x : Word) (n k : Nat) (hn : n < 32) (hk : k < 32) :
    (rotl x n).getLsbD k = x.getLsbD ((k + (32 - n)) % 32) := by
  rw [rotl, BitVec.getLsbD_rotateLeft]
  by_cases h : k < n
  · simp only [Nat.mod_eq_of_lt hn, h, decide_true, cond_true]
    rw [Nat.mod_eq_of_lt (by omega), Nat.add_comm]
  · simp only [Nat.mod_eq_of_lt hn, h, decide_false, cond_false, hk, decide_true, Bool.true_and]
    rw [show k + (32 - n) = k - n + 32 from by omega, Nat.add_mod_right, Nat.mod_eq_of_lt (by omega)]

/-- Bit k of byte j (00_scope.md R11). -/
theorem getLsbD_byteJ (w : Word) (j k : Nat) :
    (byteJ w j).getLsbD k = (decide (k < 8) && w.getLsbD (24 - 8 * j + k)) := by
  simp [byteJ, BitVec.getLsbD_extractLsb']

/-- Byte j of a packed word is the j-th byte packed (00_scope.md R12). -/
theorem byteJ_be32 (b0 b1 b2 b3 : Byte) :
    byteJ (be32 b0 b1 b2 b3) 0 = b0 ∧ byteJ (be32 b0 b1 b2 b3) 1 = b1 ∧
      byteJ (be32 b0 b1 b2 b3) 2 = b2 ∧ byteJ (be32 b0 b1 b2 b3) 3 = b3 := by
  refine ⟨?_, ?_, ?_, ?_⟩ <;>
  · apply BitVec.eq_of_getLsbD_eq
    intro k hk
    rw [getLsbD_byteJ]
    interval_cases k <;> simp [be32]

/-- A word is what its four bytes pack to. -/
theorem be32_byteJ (w : Word) : be32 (byteJ w 0) (byteJ w 1) (byteJ w 2) (byteJ w 3) = w := by
  apply BitVec.eq_of_getLsbD_eq
  intro k hk
  simp only [be32, BitVec.getLsbD_or, BitVec.getLsbD_shiftLeft, BitVec.getLsbD_setWidth, getLsbD_byteJ]
  interval_cases k <;> simp

/-- Two words with the same four bytes are equal. -/
theorem eq_of_byteJ (x y : Word) (h : ∀ j, j < 4 → byteJ x j = byteJ y j) : x = y := by
  rw [← be32_byteJ x, ← be32_byteJ y, h 0 (by omega), h 1 (by omega), h 2 (by omega), h 3 (by omega)]

end Sys2Proof.Machine
end

