-- ==== Sys2Proof/Laws/State.lean ====
section
/-! SUPPORT. What each named operation leaves in each field of the state. -/

namespace Sys2Proof.Machine

@[simp] theorem setDout0_strat (s : State) (v : Word) : (setDout0 s v).strat = s.strat := rfl
@[simp] theorem setDout0_cmdLast (s : State) (v : Word) : (setDout0 s v).cmdLast = s.cmdLast := rfl
@[simp] theorem setDout0_busy (s : State) (v : Word) : (setDout0 s v).busy = s.busy := rfl
@[simp] theorem setDout0_ksv (s : State) (v : Word) : (setDout0 s v).ksv = s.ksv := rfl
@[simp] theorem setDout0_ovr (s : State) (v : Word) : (setDout0 s v).ovr = s.ovr := rfl
@[simp] theorem setDout0_err (s : State) (v : Word) : (setDout0 s v).err = s.err := rfl
@[simp] theorem setDout0_key (s : State) (v : Word) : (setDout0 s v).key = s.key := rfl
@[simp] theorem setDout0_din (s : State) (v : Word) : (setDout0 s v).din = s.din := rfl
@[simp] theorem setDout0_arg (s : State) (v : Word) : (setDout0 s v).arg = s.arg := rfl
@[simp] theorem setDout0_dout (s : State) (v : Word) : (setDout0 s v).dout = s.dout.set 0 v := rfl
@[simp] theorem setDout0_rkf (s : State) (v : Word) : (setDout0 s v).rkf = s.rkf := rfl
@[simp] theorem setDout0_p (s : State) (v : Word) : (setDout0 s v).p = s.p := rfl
@[simp] theorem setDout0_draws (s : State) (v : Word) : (setDout0 s v).draws = s.draws := rfl
@[simp] theorem setDout0_hosts (s : State) (v : Word) : (setDout0 s v).hosts = s.hosts := rfl
@[simp] theorem setDout0_schedule (s : State) (v : Word) : (setDout0 s v).schedule = s.schedule := rfl

@[simp] theorem setDout_strat (s : State) (v : Vector Word 4) : (setDout s v).strat = s.strat := rfl
@[simp] theorem setDout_cmdLast (s : State) (v : Vector Word 4) : (setDout s v).cmdLast = s.cmdLast := rfl
@[simp] theorem setDout_busy (s : State) (v : Vector Word 4) : (setDout s v).busy = s.busy := rfl
@[simp] theorem setDout_ksv (s : State) (v : Vector Word 4) : (setDout s v).ksv = s.ksv := rfl
@[simp] theorem setDout_ovr (s : State) (v : Vector Word 4) : (setDout s v).ovr = s.ovr := rfl
@[simp] theorem setDout_err (s : State) (v : Vector Word 4) : (setDout s v).err = s.err := rfl
@[simp] theorem setDout_key (s : State) (v : Vector Word 4) : (setDout s v).key = s.key := rfl
@[simp] theorem setDout_din (s : State) (v : Vector Word 4) : (setDout s v).din = s.din := rfl
@[simp] theorem setDout_arg (s : State) (v : Vector Word 4) : (setDout s v).arg = s.arg := rfl
@[simp] theorem setDout_dout (s : State) (v : Vector Word 4) : (setDout s v).dout = v := rfl
@[simp] theorem setDout_rkf (s : State) (v : Vector Word 4) : (setDout s v).rkf = s.rkf := rfl
@[simp] theorem setDout_p (s : State) (v : Vector Word 4) : (setDout s v).p = s.p := rfl
@[simp] theorem setDout_draws (s : State) (v : Vector Word 4) : (setDout s v).draws = s.draws := rfl
@[simp] theorem setDout_hosts (s : State) (v : Vector Word 4) : (setDout s v).hosts = s.hosts := rfl
@[simp] theorem setDout_schedule (s : State) (v : Vector Word 4) : (setDout s v).schedule = s.schedule := rfl

@[simp] theorem setSchedule_strat (s : State) (rk : Vector Word 32) : (setSchedule s rk).strat = s.strat := rfl
@[simp] theorem setSchedule_cmdLast (s : State) (rk : Vector Word 32) : (setSchedule s rk).cmdLast = s.cmdLast := rfl
@[simp] theorem setSchedule_busy (s : State) (rk : Vector Word 32) : (setSchedule s rk).busy = s.busy := rfl
@[simp] theorem setSchedule_ksv (s : State) (rk : Vector Word 32) : (setSchedule s rk).ksv = true := rfl
@[simp] theorem setSchedule_ovr (s : State) (rk : Vector Word 32) : (setSchedule s rk).ovr = s.ovr := rfl
@[simp] theorem setSchedule_err (s : State) (rk : Vector Word 32) : (setSchedule s rk).err = s.err := rfl
@[simp] theorem setSchedule_key (s : State) (rk : Vector Word 32) : (setSchedule s rk).key = s.key := rfl
@[simp] theorem setSchedule_din (s : State) (rk : Vector Word 32) : (setSchedule s rk).din = s.din := rfl
@[simp] theorem setSchedule_arg (s : State) (rk : Vector Word 32) : (setSchedule s rk).arg = s.arg := rfl
@[simp] theorem setSchedule_dout (s : State) (rk : Vector Word 32) : (setSchedule s rk).dout = s.dout := rfl
@[simp] theorem setSchedule_rkf (s : State) (rk : Vector Word 32) : (setSchedule s rk).rkf = rk := rfl
@[simp] theorem setSchedule_p (s : State) (rk : Vector Word 32) : (setSchedule s rk).p = s.p := rfl
@[simp] theorem setSchedule_draws (s : State) (rk : Vector Word 32) : (setSchedule s rk).draws = s.draws := rfl
@[simp] theorem setSchedule_hosts (s : State) (rk : Vector Word 32) : (setSchedule s rk).hosts = s.hosts := rfl
@[simp] theorem setSchedule_schedule (s : State) (rk : Vector Word 32) : (setSchedule s rk).schedule = s.schedule := rfl

@[simp] theorem finish_strat (s : State) : (finish s).strat = s.strat := rfl
@[simp] theorem finish_cmdLast (s : State) : (finish s).cmdLast = s.cmdLast := rfl
@[simp] theorem finish_busy (s : State) : (finish s).busy = false := rfl
@[simp] theorem finish_ksv (s : State) : (finish s).ksv = s.ksv := rfl
@[simp] theorem finish_ovr (s : State) : (finish s).ovr = s.ovr := rfl
@[simp] theorem finish_err (s : State) : (finish s).err = 0 := rfl
@[simp] theorem finish_key (s : State) : (finish s).key = s.key := rfl
@[simp] theorem finish_din (s : State) : (finish s).din = s.din := rfl
@[simp] theorem finish_arg (s : State) : (finish s).arg = s.arg := rfl
@[simp] theorem finish_dout (s : State) : (finish s).dout = s.dout := rfl
@[simp] theorem finish_rkf (s : State) : (finish s).rkf = s.rkf := rfl
@[simp] theorem finish_p (s : State) : (finish s).p = s.p := rfl
@[simp] theorem finish_draws (s : State) : (finish s).draws = s.draws := rfl
@[simp] theorem finish_hosts (s : State) : (finish s).hosts = s.hosts := rfl
@[simp] theorem finish_schedule (s : State) : (finish s).schedule = s.schedule := rfl

@[simp] theorem raiseError_strat (s : State) (e : ErrorCode) : (raiseError s e).strat = s.strat := rfl
@[simp] theorem raiseError_cmdLast (s : State) (e : ErrorCode) : (raiseError s e).cmdLast = s.cmdLast := rfl
@[simp] theorem raiseError_busy (s : State) (e : ErrorCode) : (raiseError s e).busy = false := rfl
@[simp] theorem raiseError_ksv (s : State) (e : ErrorCode) : (raiseError s e).ksv = s.ksv := rfl
@[simp] theorem raiseError_ovr (s : State) (e : ErrorCode) : (raiseError s e).ovr = s.ovr := rfl
@[simp] theorem raiseError_err (s : State) (e : ErrorCode) : (raiseError s e).err = e.code := rfl
@[simp] theorem raiseError_key (s : State) (e : ErrorCode) : (raiseError s e).key = s.key := rfl
@[simp] theorem raiseError_din (s : State) (e : ErrorCode) : (raiseError s e).din = s.din := rfl
@[simp] theorem raiseError_arg (s : State) (e : ErrorCode) : (raiseError s e).arg = s.arg := rfl
@[simp] theorem raiseError_dout (s : State) (e : ErrorCode) : (raiseError s e).dout = s.dout := rfl
@[simp] theorem raiseError_rkf (s : State) (e : ErrorCode) : (raiseError s e).rkf = s.rkf := rfl
@[simp] theorem raiseError_p (s : State) (e : ErrorCode) : (raiseError s e).p = s.p := rfl
@[simp] theorem raiseError_draws (s : State) (e : ErrorCode) : (raiseError s e).draws = s.draws := rfl
@[simp] theorem raiseError_hosts (s : State) (e : ErrorCode) : (raiseError s e).hosts = s.hosts := rfl
@[simp] theorem raiseError_schedule (s : State) (e : ErrorCode) : (raiseError s e).schedule = s.schedule := rfl

@[simp] theorem acceptIssue_strat (s : State) (w : Word) : (acceptIssue s w).strat = s.strat := rfl
@[simp] theorem acceptIssue_cmdLast (s : State) (w : Word) : (acceptIssue s w).cmdLast = w := rfl
@[simp] theorem acceptIssue_busy (s : State) (w : Word) : (acceptIssue s w).busy = true := rfl
@[simp] theorem acceptIssue_ksv (s : State) (w : Word) : (acceptIssue s w).ksv = s.ksv := rfl
@[simp] theorem acceptIssue_ovr (s : State) (w : Word) : (acceptIssue s w).ovr = s.ovr := rfl
@[simp] theorem acceptIssue_err (s : State) (w : Word) : (acceptIssue s w).err = 0 := rfl
@[simp] theorem acceptIssue_key (s : State) (w : Word) : (acceptIssue s w).key = s.key := rfl
@[simp] theorem acceptIssue_din (s : State) (w : Word) : (acceptIssue s w).din = s.din := rfl
@[simp] theorem acceptIssue_arg (s : State) (w : Word) : (acceptIssue s w).arg = s.arg := rfl
@[simp] theorem acceptIssue_dout (s : State) (w : Word) : (acceptIssue s w).dout = s.dout := rfl
@[simp] theorem acceptIssue_rkf (s : State) (w : Word) : (acceptIssue s w).rkf = s.rkf := rfl
@[simp] theorem acceptIssue_p (s : State) (w : Word) : (acceptIssue s w).p = ⟨w, s.key, s.din, s.arg, s.strat⟩ := rfl
@[simp] theorem acceptIssue_draws (s : State) (w : Word) : (acceptIssue s w).draws = s.draws := rfl
@[simp] theorem acceptIssue_hosts (s : State) (w : Word) : (acceptIssue s w).hosts = s.hosts := rfl
@[simp] theorem acceptIssue_schedule (s : State) (w : Word) : (acceptIssue s w).schedule = s.schedule := rfl

@[simp] theorem overrun_strat (s : State) : (overrun s).strat = s.strat := rfl
@[simp] theorem overrun_cmdLast (s : State) : (overrun s).cmdLast = s.cmdLast := rfl
@[simp] theorem overrun_busy (s : State) : (overrun s).busy = s.busy := rfl
@[simp] theorem overrun_ksv (s : State) : (overrun s).ksv = s.ksv := rfl
@[simp] theorem overrun_ovr (s : State) : (overrun s).ovr = true := rfl
@[simp] theorem overrun_err (s : State) : (overrun s).err = s.err := rfl
@[simp] theorem overrun_key (s : State) : (overrun s).key = s.key := rfl
@[simp] theorem overrun_din (s : State) : (overrun s).din = s.din := rfl
@[simp] theorem overrun_arg (s : State) : (overrun s).arg = s.arg := rfl
@[simp] theorem overrun_dout (s : State) : (overrun s).dout = s.dout := rfl
@[simp] theorem overrun_rkf (s : State) : (overrun s).rkf = s.rkf := rfl
@[simp] theorem overrun_p (s : State) : (overrun s).p = s.p := rfl
@[simp] theorem overrun_draws (s : State) : (overrun s).draws = s.draws := rfl
@[simp] theorem overrun_hosts (s : State) : (overrun s).hosts = s.hosts := rfl
@[simp] theorem overrun_schedule (s : State) : (overrun s).schedule = s.schedule := rfl

@[simp] theorem resetEngine_strat (s : State) : (resetEngine s).strat = .direct := rfl
@[simp] theorem resetEngine_cmdLast (s : State) : (resetEngine s).cmdLast = 0 := rfl
@[simp] theorem resetEngine_busy (s : State) : (resetEngine s).busy = false := rfl
@[simp] theorem resetEngine_ksv (s : State) : (resetEngine s).ksv = false := rfl
@[simp] theorem resetEngine_ovr (s : State) : (resetEngine s).ovr = false := rfl
@[simp] theorem resetEngine_err (s : State) : (resetEngine s).err = 0 := rfl
@[simp] theorem resetEngine_key (s : State) : (resetEngine s).key = #v[0, 0, 0, 0] := rfl
@[simp] theorem resetEngine_din (s : State) : (resetEngine s).din = #v[0, 0, 0, 0] := rfl
@[simp] theorem resetEngine_arg (s : State) : (resetEngine s).arg = 0 := rfl
@[simp] theorem resetEngine_dout (s : State) : (resetEngine s).dout = #v[0, 0, 0, 0] := rfl
@[simp] theorem resetEngine_rkf (s : State) : 
    (resetEngine s).rkf = Vector.ofFn fun i => Config.rkReset (s.draws + 1) i.val := rfl
@[simp] theorem resetEngine_p (s : State) : (resetEngine s).p = .empty := rfl
@[simp] theorem resetEngine_draws (s : State) : (resetEngine s).draws = s.draws + 1 := rfl
@[simp] theorem resetEngine_hosts (s : State) : (resetEngine s).hosts = s.hosts := rfl
@[simp] theorem resetEngine_schedule (s : State) : (resetEngine s).schedule = s.schedule := rfl

@[simp] theorem assertReset_strat (s : State) : (assertReset s).strat = s.strat := rfl
@[simp] theorem assertReset_cmdLast (s : State) : (assertReset s).cmdLast = s.cmdLast := rfl
@[simp] theorem assertReset_busy (s : State) : (assertReset s).busy = s.busy := rfl
@[simp] theorem assertReset_ksv (s : State) : (assertReset s).ksv = s.ksv := rfl
@[simp] theorem assertReset_ovr (s : State) : (assertReset s).ovr = s.ovr := rfl
@[simp] theorem assertReset_err (s : State) : (assertReset s).err = s.err := rfl
@[simp] theorem assertReset_key (s : State) : (assertReset s).key = s.key := rfl
@[simp] theorem assertReset_din (s : State) : (assertReset s).din = s.din := rfl
@[simp] theorem assertReset_arg (s : State) : (assertReset s).arg = s.arg := rfl
@[simp] theorem assertReset_dout (s : State) : (assertReset s).dout = s.dout := rfl
@[simp] theorem assertReset_rkf (s : State) : (assertReset s).rkf = s.rkf := rfl
@[simp] theorem assertReset_p (s : State) : (assertReset s).p = s.p := rfl
@[simp] theorem assertReset_draws (s : State) : (assertReset s).draws = s.draws := rfl
@[simp] theorem assertReset_hosts (s : State) : (assertReset s).hosts = s.hosts := rfl
@[simp] theorem assertReset_schedule (s : State) : (assertReset s).schedule = .reset :: s.schedule := rfl

@[simp] theorem setTurns_strat (s : State) (ts : List Turn) : (setTurns s ts).strat = s.strat := rfl
@[simp] theorem setTurns_cmdLast (s : State) (ts : List Turn) : (setTurns s ts).cmdLast = s.cmdLast := rfl
@[simp] theorem setTurns_busy (s : State) (ts : List Turn) : (setTurns s ts).busy = s.busy := rfl
@[simp] theorem setTurns_ksv (s : State) (ts : List Turn) : (setTurns s ts).ksv = s.ksv := rfl
@[simp] theorem setTurns_ovr (s : State) (ts : List Turn) : (setTurns s ts).ovr = s.ovr := rfl
@[simp] theorem setTurns_err (s : State) (ts : List Turn) : (setTurns s ts).err = s.err := rfl
@[simp] theorem setTurns_key (s : State) (ts : List Turn) : (setTurns s ts).key = s.key := rfl
@[simp] theorem setTurns_din (s : State) (ts : List Turn) : (setTurns s ts).din = s.din := rfl
@[simp] theorem setTurns_arg (s : State) (ts : List Turn) : (setTurns s ts).arg = s.arg := rfl
@[simp] theorem setTurns_dout (s : State) (ts : List Turn) : (setTurns s ts).dout = s.dout := rfl
@[simp] theorem setTurns_rkf (s : State) (ts : List Turn) : (setTurns s ts).rkf = s.rkf := rfl
@[simp] theorem setTurns_p (s : State) (ts : List Turn) : (setTurns s ts).p = s.p := rfl
@[simp] theorem setTurns_draws (s : State) (ts : List Turn) : (setTurns s ts).draws = s.draws := rfl
@[simp] theorem setTurns_hosts (s : State) (ts : List Turn) : (setTurns s ts).hosts = s.hosts := rfl
@[simp] theorem setTurns_schedule (s : State) (ts : List Turn) : (setTurns s ts).schedule = ts := rfl

@[simp] theorem setHosts_strat (s : State) (hs : List HostAgent) : (setHosts s hs).strat = s.strat := rfl
@[simp] theorem setHosts_cmdLast (s : State) (hs : List HostAgent) : (setHosts s hs).cmdLast = s.cmdLast := rfl
@[simp] theorem setHosts_busy (s : State) (hs : List HostAgent) : (setHosts s hs).busy = s.busy := rfl
@[simp] theorem setHosts_ksv (s : State) (hs : List HostAgent) : (setHosts s hs).ksv = s.ksv := rfl
@[simp] theorem setHosts_ovr (s : State) (hs : List HostAgent) : (setHosts s hs).ovr = s.ovr := rfl
@[simp] theorem setHosts_err (s : State) (hs : List HostAgent) : (setHosts s hs).err = s.err := rfl
@[simp] theorem setHosts_key (s : State) (hs : List HostAgent) : (setHosts s hs).key = s.key := rfl
@[simp] theorem setHosts_din (s : State) (hs : List HostAgent) : (setHosts s hs).din = s.din := rfl
@[simp] theorem setHosts_arg (s : State) (hs : List HostAgent) : (setHosts s hs).arg = s.arg := rfl
@[simp] theorem setHosts_dout (s : State) (hs : List HostAgent) : (setHosts s hs).dout = s.dout := rfl
@[simp] theorem setHosts_rkf (s : State) (hs : List HostAgent) : (setHosts s hs).rkf = s.rkf := rfl
@[simp] theorem setHosts_p (s : State) (hs : List HostAgent) : (setHosts s hs).p = s.p := rfl
@[simp] theorem setHosts_draws (s : State) (hs : List HostAgent) : (setHosts s hs).draws = s.draws := rfl
@[simp] theorem setHosts_hosts (s : State) (hs : List HostAgent) : (setHosts s hs).hosts = hs := rfl
@[simp] theorem setHosts_schedule (s : State) (hs : List HostAgent) : (setHosts s hs).schedule = s.schedule := rfl

@[simp] theorem setHost_strat (s : State) (k : Nat) (h : HostAgent) : (setHost s k h).strat = s.strat := rfl
@[simp] theorem setHost_cmdLast (s : State) (k : Nat) (h : HostAgent) : (setHost s k h).cmdLast = s.cmdLast := rfl
@[simp] theorem setHost_busy (s : State) (k : Nat) (h : HostAgent) : (setHost s k h).busy = s.busy := rfl
@[simp] theorem setHost_ksv (s : State) (k : Nat) (h : HostAgent) : (setHost s k h).ksv = s.ksv := rfl
@[simp] theorem setHost_ovr (s : State) (k : Nat) (h : HostAgent) : (setHost s k h).ovr = s.ovr := rfl
@[simp] theorem setHost_err (s : State) (k : Nat) (h : HostAgent) : (setHost s k h).err = s.err := rfl
@[simp] theorem setHost_key (s : State) (k : Nat) (h : HostAgent) : (setHost s k h).key = s.key := rfl
@[simp] theorem setHost_din (s : State) (k : Nat) (h : HostAgent) : (setHost s k h).din = s.din := rfl
@[simp] theorem setHost_arg (s : State) (k : Nat) (h : HostAgent) : (setHost s k h).arg = s.arg := rfl
@[simp] theorem setHost_dout (s : State) (k : Nat) (h : HostAgent) : (setHost s k h).dout = s.dout := rfl
@[simp] theorem setHost_rkf (s : State) (k : Nat) (h : HostAgent) : (setHost s k h).rkf = s.rkf := rfl
@[simp] theorem setHost_p (s : State) (k : Nat) (h : HostAgent) : (setHost s k h).p = s.p := rfl
@[simp] theorem setHost_draws (s : State) (k : Nat) (h : HostAgent) : (setHost s k h).draws = s.draws := rfl
@[simp] theorem setHost_hosts (s : State) (k : Nat) (h : HostAgent) : (setHost s k h).hosts = s.hosts.set k h := rfl
@[simp] theorem setHost_schedule (s : State) (k : Nat) (h : HostAgent) : (setHost s k h).schedule = s.schedule := rfl

end Sys2Proof.Machine
end

