-- ==== Sys2Proof/Laws/Window.lean ====
section
/-! SUPPORT. The register window: what a read and a write can do, and the register map both ways
(10_state.md R20, R28; 20_memory.md R62 to R65). -/

namespace Sys2Proof.Machine

/-- Everything a host write at an offset can do (20_memory.md R65). -/
theorem writeOffset_cases (s : State) (off : Nat) (v : Word) :
    writeOffset s off v = s ∨
    (Reg.ofOffset off = some .config ∧ writeOffset s off v = { s with strat := stratOfWord v }) ∨
    (Reg.ofOffset off = some .cmd ∧ s.busy = true ∧ writeOffset s off v = overrun s) ∨
    (Reg.ofOffset off = some .cmd ∧ s.busy = false ∧ writeOffset s off v = acceptIssue s v) ∨
    (Reg.ofOffset off = some .status ∧ v.getLsbD 2 = true ∧ writeOffset s off v = { s with ovr := false }) ∨
    (∃ i : Fin 4, Reg.ofOffset off = some (.key i) ∧ writeOffset s off v = { s with key := s.key.set i v }) ∨
    (∃ i : Fin 4, Reg.ofOffset off = some (.din i) ∧ writeOffset s off v = { s with din := s.din.set i v }) ∨
    (Reg.ofOffset off = some .arg ∧ writeOffset s off v = { s with arg := v }) := by
  unfold writeOffset
  cases h : Reg.ofOffset off with
  | none => exact .inl rfl
  | some r =>
    cases r with
    | config | key | din | arg => simp [writeReg]
    | cmd => cases hb : s.busy <;> simp [writeReg, issue, hb]
    | status =>
      simp only [writeReg, writeStatus]
      split <;> simp_all
    | id | dout | rk | fk | ck | sboxw | ct => exact .inl rfl

/-- Everything a host read at an offset can do to the state: nothing, but for the count of free values (20_memory.md
R68; log 4). -/
theorem readOffset_state (s : State) (off : Nat) :
    (readOffset s off).2 = s ∨ (s.ksv = false ∧ (readOffset s off).2 = { s with draws := s.draws + 1 }) := by
  unfold readOffset
  cases h : Reg.ofOffset off with
  | none => exact .inl rfl
  | some r =>
    cases r with
    | rk i => cases hk : s.ksv <;> simp [readReg, readRk, hk]
    | id | config | cmd | status | key | din | arg | dout | fk | ck | sboxw | ct => exact .inl rfl

/-- A row of the register map names the registers of its own slots. -/
theorem group_eq_some (base k n : Nat) (f : Fin k → Reg) (r : Reg) :
    group base k f n = some r ↔ ∃ h : base ≤ n ∧ n - base < k, f ⟨n - base, h.2⟩ = r := by
  unfold group
  split <;> simp_all

/-- A row of the register map names nothing outside its own slots. -/
theorem group_eq_none (base k n : Nat) (f : Fin k → Reg) :
    group base k f n = none ↔ ¬ (base ≤ n ∧ n - base < k) := by
  unfold group
  split <;> simp_all

/-- An offset plus SM4_BASE is a bus address with that offset (20_memory.md R60, R62). -/
theorem busOffset_busAddr (off : Nat) (h : off ≤ 0x1FFF) : busOffset (busAddr off) = off := by
  simp only [busOffset, busAddr]
  rw [BitVec.add_comm, BitVec.add_sub_cancel, BitVec.toNat_ofNat, Nat.mod_eq_of_lt (by omega)]

/-- An aligned offset of the window is admitted (20_memory.md R62). -/
theorem admitted_busAddr (off : Nat) (ha : off % 4 = 0) (h : off ≤ 0x1FFC) :
    inWindow (busAddr off) = true ∧ admitted (busAddr off) 4 = true := by
  simp [inWindow, admitted, busOffset_busAddr off (by omega), ha, h]
  omega

end Sys2Proof.Machine
end

