-- ==== Sys2Proof/Laws/Hosts.lean ====
section
/-! SUPPORT. What a host's turn can do, and the variables of a host (30_encoding.md R98, R99). -/

namespace Sys2Proof.Machine

/-- An access goes on exactly when it is admitted, which includes that it is in the window (20_memory.md R62). -/
theorem access_eq_next (addr : Word) (width : Nat) (act : Nat → State) (t : State) :
    access addr width act = .next t ↔ admitted addr width = true ∧ t = act (busOffset addr) := by
  unfold access
  have hw : admitted addr width = true → inWindow addr = true := by
    simp only [admitted, inWindow, decide_eq_true_eq]
    omega
  cases ha : admitted addr width with
  | true => rw [hw ha]; simp [eq_comm]
  | false => cases inWindow addr <;> simp

/-- Everything a host's turn can do when it goes on: nothing, one write, one read, or one branch. -/
theorem hostTurn_cases (s t : State) (k : Nat) (ht : hostTurn s k = .next t) :
    (t = s ∧ ∀ h, s.hosts[k]? = some h → h.prog[h.pc]? = none) ∨
    ∃ h, s.hosts[k]? = some h ∧
      ((∃ addr v, h.prog[h.pc]? = some (.memWrite addr 4 v) ∧ admitted addr 4 = true ∧
          t = setHost (writeOffset s (busOffset addr) v) k h.advance) ∨
       (∃ n addr, h.prog[h.pc]? = some (.memRead n addr 4) ∧ admitted addr 4 = true ∧
          t = setHost (readOffset s (busOffset addr)).2 k (h.store n (readOffset s (busOffset addr)).1)) ∨
       (∃ n mask target, h.prog[h.pc]? = some (.bnz n mask target) ∧ t = setHost s k (h.branch k n mask target))) := by
  unfold hostTurn at ht
  cases hh : s.hosts[k]? with
  | none => simp only [hh, Host.Outcome.next.injEq] at ht; simp [ht]
  | some h =>
    simp only [hh] at ht
    cases hs : h.prog[h.pc]? with
    | none => simp only [hs, Host.Outcome.next.injEq] at ht; exact .inl ⟨ht.symm, fun h' e => by rwa [← Option.some.inj e]⟩
    | some st =>
      refine .inr ⟨h, rfl, ?_⟩
      simp only [hs] at ht
      have width4 : ∀ addr width, admitted addr width = true → width = 4 := by
        simp only [admitted, decide_eq_true_eq]
        omega
      cases st with
      | memWrite addr width v =>
        simp only [hostStmt] at ht
        obtain ⟨ha, rfl⟩ := (access_eq_next ..).1 ht
        obtain rfl := width4 _ _ ha
        exact .inl ⟨addr, v, hs, ha, rfl⟩
      | memRead n addr width =>
        simp only [hostStmt] at ht
        obtain ⟨ha, rfl⟩ := (access_eq_next ..).1 ht
        obtain rfl := width4 _ _ ha
        exact .inr (.inl ⟨n, addr, hs, ha, rfl⟩)
      | bnz n mask target =>
        simp only [hostStmt, Host.Outcome.next.injEq] at ht
        exact .inr (.inr ⟨n, mask, target, hs, ht.symm⟩)

/-- A variable just set reads as set. -/
theorem getVar_setVar_self (n : Nat) (v : Word) (l : List (Nat × Word)) : getVar n (setVar n v l) = some v := by
  induction l with
  | nil => simp [setVar, getVar]
  | cons a l ih =>
    obtain ⟨m, u⟩ := a
    unfold setVar
    split
    · simp [getVar]
    · split
      · simp [getVar]
      · simp_all [getVar]

/-- Setting a variable leaves the others. -/
theorem getVar_setVar_of_ne (n m : Nat) (v : Word) (l : List (Nat × Word)) (h : m ≠ n) :
    getVar m (setVar n v l) = getVar m l := by
  induction l with
  | nil => simp [setVar, getVar, h]
  | cons a l ih =>
    obtain ⟨m', u⟩ := a
    unfold setVar
    split
    · simp [getVar, h]
    · split
      · subst_vars; simp [getVar, h]
      · simp_all [getVar]

/-- The numbers of the variables after one is set. -/
theorem mem_setVar (n : Nat) (v : Word) (l : List (Nat × Word)) (a : Nat × Word) (h : a ∈ setVar n v l) :
    a.1 = n ∨ a ∈ l := by
  induction l with
  | nil => simp_all [setVar]
  | cons b l ih =>
    obtain ⟨m, u⟩ := b
    unfold setVar at h
    split at h
    · simp only [List.mem_cons] at h ⊢; rcases h with rfl | h | h <;> simp_all
    · split at h
      · simp only [List.mem_cons] at h ⊢; rcases h with rfl | h <;> simp_all
      · simp only [List.mem_cons] at h ⊢; rcases h with rfl | h
        · simp
        · rcases ih h with h | h <;> simp_all

/-- Setting a variable keeps the rising order. -/
theorem setVar_rising (n : Nat) (v : Word) (l : List (Nat × Word)) (h : l.Pairwise fun a b => a.1 < b.1) :
    (setVar n v l).Pairwise fun a b => a.1 < b.1 := by
  induction l with
  | nil => simp [setVar]
  | cons b l ih =>
    obtain ⟨m, u⟩ := b
    obtain ⟨hb, hl⟩ := List.pairwise_cons.1 h
    unfold setVar
    split
    case isTrue hlt =>
      refine List.pairwise_cons.2 ⟨?_, h⟩
      intro a ha
      rcases List.mem_cons.1 ha with rfl | ha
      · exact hlt
      · exact Nat.lt_trans hlt (hb a ha)
    case isFalse hlt =>
      split
      case isTrue heq => subst heq; exact List.pairwise_cons.2 ⟨hb, hl⟩
      case isFalse hne =>
        refine List.pairwise_cons.2 ⟨?_, ih hl⟩
        intro a ha
        rcases mem_setVar n v l a ha with h1 | h1
        · simp only; omega
        · exact hb a h1

end Sys2Proof.Machine
end

