-- ==== Sys2Proof/Laws/Engine.lean ====
section
/-! SUPPORT. What a completion and a step can do: one case list each, which later proofs cite in place of unfolding
(44_cipher_engine.md R202; 20_memory.md R71). -/

namespace Sys2Proof.Machine

/-- Everything a command can do. It always goes on (60_exceptions.md R233). -/
theorem exec_cases (i : Instr) (s : State) :
    (i = .nop ∧ exec i s = .next (finish s)) ∨
    (i = .keyexp 16 ∧ exec i s = .next (finish (setSchedule s (expand s.p.key)))) ∨
    (i = .enc 16 ∧ s.ksv = true ∧ exec i s = .next (finish (setDout s (process s.p.din s.rkf .encrypt s.p.strat)))) ∨
    (i = .dec 16 ∧ s.ksv = true ∧ exec i s = .next (finish (setDout s (process s.p.din s.rkf .decrypt s.p.strat)))) ∨
    (∃ v, i ∈ [Instr.tau, .lin, .link, .trnd, .tkey, .frnd] ∧ exec i s = .next (finish (setDout0 s v))) ∨
    (∃ e, exec i s = .next (raiseError s e) ∧
      ((e = .invalidKeyLength ∧ ∃ len, len ≠ 16 ∧ i = .keyexp len) ∨
       (e = .invalidBlockLength ∧ ∃ len, len ≠ 16 ∧ (i = .enc len ∨ i = .dec len)) ∨
       (e = .noKeySchedule ∧ s.ksv = false ∧ (i = .enc 16 ∨ i = .dec 16)))) := by
  cases i with
  | nop => simp [exec, execNop]
  | keyexp len =>
    by_cases h : len = 16
    · simp [exec, execKeyexp, lengthOk, h, operandKey]
    · simp [exec, execKeyexp, lengthOk, h]
  | enc len | dec len =>
    by_cases h : len = 16
    · cases hk : s.ksv <;>
        simp [exec, execEnc, execDec, cryptBlock, lengthOk, h, hk, operandBlock, operandStrat]
    · simp [exec, execEnc, execDec, cryptBlock, lengthOk, h]
  | tau | lin | link | trnd | tkey | frnd =>
    exact .inr (.inr (.inr (.inr (.inl ⟨_, by simp, rfl⟩))))

/-- Everything the engine's turn can do: it always goes on. -/
theorem engineTurn_cases (s : State) :
    (s.busy = false ∧ engineTurn s = .next s) ∨
    (s.busy = true ∧ (∃ e, decode s.p.cmd = .error e) ∧ engineTurn s = .next (raiseError s .illegalCommand)) ∨
    (s.busy = true ∧ ∃ i, decode s.p.cmd = .ok i ∧ engineTurn s = exec i s) := by
  unfold engineTurn complete
  cases hb : s.busy <;> cases hd : decode s.p.cmd <;> simp

/-- The event a step takes is the head of the schedule, or the engine's turn when none is left. -/
theorem step_cases (s t : State) (h : step s = .next t) :
    (∃ ts, s.schedule = .reset :: ts ∧ t = resetEngine (setTurns s ts)) ∨
    (s.schedule = [] ∧ engineTurn s = .next t) ∨
    (∃ ts, s.schedule = .engine :: ts ∧ engineTurn (setTurns s ts) = .next t) ∨
    (∃ k ts, s.schedule = .host k :: ts ∧ hostTurn (setTurns s ts) k = .next t) := by
  unfold step at h
  split at h
  · exact .inr (.inl ⟨‹_›, h⟩)
  · exact .inr (.inr (.inl ⟨_, ‹_›, h⟩))
  · exact .inr (.inr (.inr ⟨_, _, ‹_›, h⟩))
  · simp only [Host.Outcome.next.injEq] at h
    exact .inl ⟨_, ‹_›, h.symm⟩

end Sys2Proof.Machine
end

