-- ==== Sys2Proof/Laws/PerInstr.lean ====
section
/-! SUPPORT. Families of statements about every command as syntax, one lemma per constructor. -/

namespace Sys2Proof.Laws.Encoding

/-- The word of a command has RSV = 0, its own OPC and its own LEN in the fields of 30_encoding.md R90. -/
def Statement (i : Instr) : Prop :=
  fieldRsv (encode i) = 0 ∧ fieldOpc (encode i) = opcode i ∧ fieldLen (encode i) = lenField i

/-- The fields of a command word are what it was made of. -/
theorem fields_commandWord (len opc : Byte) :
    fieldRsv (commandWord len opc) = 0 ∧ fieldOpc (commandWord len opc) = opc ∧
      fieldLen (commandWord len opc) = len := by
  refine ⟨?_, ?_, ?_⟩ <;>
  · apply BitVec.eq_of_getLsbD_eq
    intro k hk
    simp only [fieldRsv, fieldOpc, fieldLen, commandWord, BitVec.getLsbD_extractLsb', BitVec.getLsbD_or,
      BitVec.getLsbD_shiftLeft, BitVec.getLsbD_setWidth]
    interval_cases k <;> simp

theorem nop : Statement .nop := fields_commandWord _ _
theorem keyexp (len : Nat) : Statement (.keyexp len) := fields_commandWord _ _
theorem enc (len : Nat) : Statement (.enc len) := fields_commandWord _ _
theorem dec (len : Nat) : Statement (.dec len) := fields_commandWord _ _
theorem tau : Statement .tau := fields_commandWord _ _
theorem lin : Statement .lin := fields_commandWord _ _
theorem link : Statement .link := fields_commandWord _ _
theorem trnd : Statement .trnd := fields_commandWord _ _
theorem tkey : Statement .tkey := fields_commandWord _ _
theorem frnd : Statement .frnd := fields_commandWord _ _

end Sys2Proof.Laws.Encoding
end

