-- ==== Sys2Proof/Laws/Runs.lean ====
section
/-! SUPPORT. Runs of several steps. -/

namespace Sys2Proof.Machine

/-- A run of no step stays where it is. -/
@[simp] theorem runSteps_zero (s : State) : runSteps 0 s = .next s := rfl

/-- A run whose first step goes on is that step and the rest. -/
theorem runSteps_succ_of_next (n : Nat) (s t : State) (h : step s = .next t) : runSteps (n + 1) s = runSteps n t := by
  simp [runSteps, h]

/-- A run that goes on began with a step that went on. -/
theorem runSteps_succ_inv (n : Nat) (s u : State) (h : runSteps (n + 1) s = .next u) :
    ∃ t, step s = .next t ∧ runSteps n t = .next u := by
  rw [runSteps] at h
  cases hs : step s with
  | next t => exact ⟨t, rfl, by simpa [hs] using h⟩
  | fault f => simp [hs] at h
  | refused r => simp [hs] at h

/-- What holds of a state and is kept by every step holds after every run. -/
theorem runSteps_keeps (P : State → Prop) (keep : ∀ s t, P s → step s = .next t → P t) (n : Nat) (s u : State)
    (hs : P s) (h : runSteps n s = .next u) : P u := by
  induction n generalizing s with
  | zero => simp only [runSteps_zero, Host.Outcome.next.injEq] at h; exact h ▸ hs
  | succ n ih =>
    obtain ⟨t, h1, h2⟩ := runSteps_succ_inv n s u h
    exact ih t (keep s t hs h1) h2

end Sys2Proof.Machine
end

