-- ==== Sys2Proof/Tests/Slice0.lean ====
section
/-! SUPPORT. Tests of the model. Every expected value is written out from the spec: the command words from
30_encoding.md R90, R93, R95, R97, the tables from 40_constants.md, the results from 95_test_vectors.md. The theorems
named `test_witness_…` show states that meet the hypotheses of the obligation named. -/

namespace Sys2Proof.Tests

open Sys2Proof.Machine

/-! ## Well-formedness: LEN is a byte (30_encoding.md R92) -/

theorem test_wellFormed_keyexp : (Instr.keyexp 256).wellFormed = false ∧ (Instr.keyexp 255).wellFormed = true := by decide
theorem test_wellFormed_enc : (Instr.enc 256).wellFormed = false ∧ (Instr.enc 255).wellFormed = true := by decide
theorem test_wellFormed_dec : (Instr.dec 256).wellFormed = false ∧ (Instr.dec 0).wellFormed = true := by decide
theorem test_wellFormed_no_length :
    [Instr.nop, .tau, .lin, .link, .trnd, .tkey, .frnd].all Instr.wellFormed = true := by decide

/-! ## Decoding: words written bit by bit, RSV, LEN, OPC (30_encoding.md R90, R93) -/

theorem test_decode_nop : decode 0b0000000000000000_00000000_00000000 = .ok .nop := by decide
theorem test_decode_keyexp : decode 0b0000000000000000_00010000_00000001 = .ok (.keyexp 16) := by decide
theorem test_decode_enc : decode 0b0000000000000000_11111111_00000010 = .ok (.enc 255) := by decide
theorem test_decode_dec : decode 0b0000000000000000_00000001_00000011 = .ok (.dec 1) := by decide
theorem test_decode_tau : decode 0b0000000000000000_00000000_00010000 = .ok .tau := by decide
theorem test_decode_lin : decode 0b0000000000000000_00000000_00010001 = .ok .lin := by decide
theorem test_decode_link : decode 0b0000000000000000_00000000_00010010 = .ok .link := by decide
theorem test_decode_trnd : decode 0b0000000000000000_00000000_00010011 = .ok .trnd := by decide
theorem test_decode_tkey : decode 0b0000000000000000_00000000_00010100 = .ok .tkey := by decide
theorem test_decode_frnd : decode 0b0000000000000000_00000000_00010101 = .ok .frnd := by decide

/-- The edges of the two unassigned ranges (30_encoding.md R95). -/
theorem test_decode_unassigned :
    [0x04#32, 0x0F, 0x16, 0xFF].all (fun w => decode w == .error .unassignedOpcode) = true := by decide

/-- RSV ≠ 0, at either end of the field, is looked at first (30_encoding.md R94, R95). -/
theorem test_decode_reserved :
    [0x00011002#32, 0x80000F02, 0x00010000, 0xFFFFFFFF].all (fun w => decode w == .error .reservedBits) = true := by
  decide

/-- LEN ≠ 0 on the seven commands without a length (30_encoding.md R95). -/
theorem test_decode_length :
    [0x00001000#32, 0x00000110, 0x00008011, 0x00001012, 0x00001013, 0x00001014, 0x0000FF15].all
      (fun w => decode w == .error .lengthNotZero) = true := by decide

theorem test_decodeTableWord :
    decodeTableWord 32 0x1002 = some (.enc 16) ∧ decodeTableWord 32 0x04 = none ∧ decodeTableWord 32 0x00010000 = none := by
  decide

/-! ## Tables (95_test_vectors.md 2.1; 40_constants.md R121, R124) -/

set_option maxRecDepth 20000 in
/-- S is a permutation: it has 256 entries and every byte is among them (40_constants.md R121); its corner values. -/
theorem test_sbox :
    (sboxRows.flatten.length = 256 ∧ sboxRows.flatten.foldl (fun m b => m ||| 2 ^ b.toNat) 0 = 2 ^ 256 - 1) ∧
    sbox 0x00 = 0xd6 ∧ sbox 0x01 = 0x90 ∧ sbox 0x80 = 0xea ∧ sbox 0xff = 0x48 := by decide

/-- Byte j of CK[i] is (4·i + j)·7 mod 256 (40_constants.md R124). -/
theorem test_ck_formula :
    ∀ (i : Fin 32) (j : Fin 4), byteJ ck[i] j.val = BitVec.ofNat 8 ((4 * i.val + j.val) * 7) := by decide

/-- The state after reset with a fixed round-key file, so that tests can be evaluated. -/
def base : State := { State.reset with rkf := Vector.replicate 32 0 }

/-- A read by offset, as a host sees it. -/
def reads (s : State) (off : Nat) : Word := (readOffset s off).1

/-- The ROM windows and ID at their offsets (10_state.md R20; 95_test_vectors.md 2.1 and program P2). -/
theorem test_rom_offsets :
    reads base 0x400 = 0xd690e9fe ∧ reads base 0x480 = 0xeabf8ad2 ∧ reads base 0x4FC = 0xd7cb3948 ∧
    reads base 0x200 = 0xa3b1bac6 ∧ reads base 0x20C = 0xb27022dc ∧
    reads base 0x280 = 0x00070e15 ∧ reads base 0x2FC = 0x646b7279 ∧
    reads base 0x1000 = 0x8ed55b5b ∧ reads base 0x1600 = 0xab42e9ab ∧ reads base 0x1FFC = 0x49212168 ∧
    reads base 0x000 = 0x534D3401 := by decide

/-- CONFIG keeps bit 0 only; reserved slots read 0 and ignore writes (10_state.md R23; 20_memory.md R64). -/
theorem test_config_and_reserved :
    reads (writeOffset base 0x004 0xFFFFFFFF) 0x004 = 1 ∧ writeOffset base 0x034 0xFFFFFFFF = base ∧
    writeOffset base 0x210 1 = base ∧ reads base 0xFFC = 0 := by decide

/-- Writes at both ends of the operand registers land where they are read (10_state.md R20). -/
theorem test_operand_registers :
    (writeOffset base 0x01C 7).key = #v[0, 0, 0, 7] ∧ (writeOffset base 0x020 8).din = #v[8, 0, 0, 0] ∧
    (writeOffset base 0x030 9).arg = 9 ∧ writeOffset base 0x040 1 = base ∧ writeOffset base 0x100 1 = base := by decide

/-! ## The commands (95_test_vectors.md 2.2 to 2.7) -/

/-- A state in which `w` is pending with this block, round key and strategy. -/
def pending (w : Word) (din : Vector Word 4) (arg : Word) (st : Strategy) : State :=
  acceptIssue { base with din := din, arg := arg, strat := st, schedule := [.engine] } w

/-- The state of an outcome that goes on, and the state before a stop otherwise. -/
def after (s : State) : Result → State
  | .next t => t
  | .fault _ => s
  | .refused _ => s

/-- The state of an outcome that goes on. -/
def next? : Result → Option State
  | .next t => some t
  | .fault _ => none
  | .refused _ => none

/-- The state after the engine's turn. -/
def done (s : State) : State := after s (step s)

def kat : Vector Word 4 := #v[0x01234567, 0x89abcdef, 0xfedcba98, 0x76543210]
def katOut : Vector Word 4 := #v[0x681edf34, 0xd206965e, 0x86b3e94f, 0x536e4246]

theorem test_nop :
    next? (exec .nop { base with err := 3, busy := true, dout := kat }) = some { base with dout := kat } := by decide

theorem test_tau : (done (pending 0x10 #v[0x01020304, 1, 2, 3] 0 .direct)).dout = #v[0x90e9fecc, 0, 0, 0] := by decide
theorem test_tau_one_bit : (done (pending 0x10 #v[0x80000000, 0, 0, 0] 0 .direct)).dout[0] = 0xead6d6d6 := by decide
theorem test_lin : (done (pending 0x11 #v[0x12345678, 0, 0, 0] 0 .direct)).dout[0] = 0xaa4e9357 := by decide
theorem test_lin_one_bit : (done (pending 0x11 #v[0x80000000, 0, 0, 0] 0 .direct)).dout[0] = 0x80820202 := by decide
theorem test_link : (done (pending 0x12 #v[0x12345678, 0, 0, 0] 0 .direct)).dout[0] = 0xa4f24e15 := by decide
theorem test_link_one_bit : (done (pending 0x12 #v[1, 0, 0, 0] 0 .direct)).dout[0] = 0x00802001 := by decide
theorem test_trnd_direct : (done (pending 0x13 #v[0xf002c39e, 0, 0, 0] 0 .direct)).dout[0] = 0x26d99622 := by decide
theorem test_trnd_table : (done (pending 0x13 #v[0x0123abff, 0, 0, 0] 0 .table)).dout[0] = 0xe4399350 := by decide
theorem test_tkey : (done (pending 0x14 #v[0x8283cb69, 0, 0, 0] 0 .direct)).dout[0] = 0x53b37958 := by decide
theorem test_tkey_sign : (done (pending 0x14 #v[0x80000000, 0, 0, 0] 0 .table)).dout[0] = 0x5b7960e7 := by decide
theorem test_frnd : (done (pending 0x15 kat 0xf12186f9 .direct)).dout = #v[0x27fad345, 0, 0, 0] := by decide
theorem test_frnd_cancels :
    (done (pending 0x15 #v[0x01234567, 0xdeadbeef, 0xdeadbeef, 0xdeadbeef] 0xdeadbeef .table)).dout[0] = 0x5a781e3c := by
  decide

/-- The known-answer key pending for KEYEXP, and its schedule. -/
def keyed (w : Word) : State := acceptIssue { base with key := kat, schedule := [.engine] } w

theorem test_keyexp :
    (done (keyed 0x1001)).rkf[0] = 0xf12186f9 ∧ (done (keyed 0x1001)).rkf[16] = 0xd120b428 ∧
      (done (keyed 0x1001)).rkf[31] = 0x9124a012 ∧ statusWord (done (keyed 0x1001)) = 2 := by decide

theorem test_keyexp_zero_key :
    (expand #v[0, 0, 0, 0])[0] = 0x45603b23 ∧ (expand #v[0, 0, 0, 0])[31] = 0xa16ca108 := by decide

/-- A block command pending over the schedule of the known-answer key. -/
def scheduled (w : Word) (din : Vector Word 4) (st : Strategy) : State :=
  { pending w din 0 st with ksv := true, rkf := expand kat }

theorem test_enc : (done (scheduled 0x1002 kat .direct)).dout = katOut := by decide
theorem test_enc_zero_block_table :
    (done (scheduled 0x1002 #v[0, 0, 0, 0] .table)).dout = #v[0x2677f46b, 0x09c122cc, 0x97553310, 0x5bd4a22a] := by decide
theorem test_dec : (done (scheduled 0x1003 katOut .table)).dout = kat := by decide
theorem test_dec_plain :
    (done (scheduled 0x1003 kat .direct)).dout = #v[0x9338375e, 0x82eec1cb, 0xbef65edf, 0x8757a631] := by decide

/-- STATUS after the error cases without a schedule (95_test_vectors.md 2.7). -/
theorem test_errors_no_schedule :
    [(0x00001002#32, 0x30#32), (0x00001003, 0x30), (0x00000F02, 0x20), (0x00000F01, 0x10), (0x000000FF, 0x40),
      (0x00000110, 0x40), (0x00001000, 0x40), (0x00000000, 0x00)].all
      (fun p => statusWord (done (pending p.1 kat 0 .direct)) == p.2 && (done (pending p.1 kat 0 .direct)).dout == base.dout)
      = true := by decide

/-- STATUS after the error cases over a schedule (95_test_vectors.md 2.7). -/
theorem test_errors_scheduled :
    [(0x00000F01#32, 0x12#32), (0x00000004, 0x42), (0x00011002, 0x42), (0x80000F02, 0x42)].all
      (fun p => statusWord (done (scheduled p.1 kat .direct)) == p.2) = true := by decide

/-- A CMD write while BUSY = 1 sets OVR and nothing else; STATUS writes 4 and 3 (95_test_vectors.md 2.7). -/
theorem test_overrun :
    writeOffset (keyed 0x1001) 0x008 0x10 = { keyed 0x1001 with ovr := true } ∧
    writeOffset { base with ovr := true } 0x00C 4 = base ∧ writeOffset (keyed 0x1001) 0x00C 3 = keyed 0x1001 := by decide

/-- The command word placed by the host interface is the one the next step runs, with the machine as after reset. -/
theorem test_withFetchWord :
    next? (step (base.withFetchWord 32 0x1003)) =
      some { base with cmdLast := 0x1003, err := 3, p := { Latch.empty with cmd := 0x1003 } } ∧
    next? (step (base.withFetchWord 8 0x110)) =
      some { base with cmdLast := 0x10, dout := #v[0xd6d6d6d6, 0, 0, 0], p := { Latch.empty with cmd := 0x10 } } := by
  decide

/-- Reset gives every register its value and abandons the pending command (70_reset_and_hazards.md R260). -/
theorem test_reset :
    let s := resetEngine { keyed 0x1001 with ovr := true, dout := kat, ksv := true }
    statusWord s = 0 ∧ s.key = #v[0, 0, 0, 0] ∧ s.dout = #v[0, 0, 0, 0] ∧ s.cmdLast = 0 ∧ s.schedule = [.engine] := by
  decide

/-! ## One host statement at a time -/

/-- A host whose next statement is `st`. -/
def hostAt (st : Stmt) : HostAgent := { prog := [st], pc := 0, vars := [] }

/-- The state `s` with one host, whose next statement is `st` and whose turn it is, and then the engine's. -/
def withHost (s : State) (st : Stmt) : State := { s with hosts := [hostAt st], schedule := [.host 0, .engine] }

/-- The state after that statement has been executed and the engine's state is that of `s`. -/
def hostDone (s : State) (st : Stmt) : State :=
  { s with hosts := [{ prog := [st], pc := 1, vars := [] }], schedule := [.engine] }

/-- The step of a host that writes at an aligned offset of the window. -/
theorem step_wr (s : State) (off : Nat) (v : Word) (ha : off % 4 = 0) (h : off ≤ 0x1FFC) :
    step (withHost s (.memWrite (busAddr off) 4 v)) =
      .next (setHost (writeOffset (setTurns (withHost s (.memWrite (busAddr off) 4 v)) [.engine]) off v) 0
        (hostAt (.memWrite (busAddr off) 4 v)).advance) := by
  obtain ⟨h1, h2⟩ := admitted_busAddr off ha h
  simp [step, hostTurn, withHost, setTurns, hostAt, hostStmt, access, h1, h2, busOffset_busAddr off (by omega)]

/-- Program P1's first statement, `wr KEY0, 0x01234567` (95_test_vectors.md). -/
theorem test_host_write :
    step (withHost base (.memWrite (busAddr 0x010) 4 0x01234567)) =
      .next (hostDone { base with key := #v[0x01234567, 0, 0, 0] } (.memWrite (busAddr 0x010) 4 0x01234567)) :=
  step_wr base 0x010 _ rfl (by decide)

/-- Polling: `rd t, STATUS` of a busy engine with a schedule gives 3 (10_state.md R25). -/
theorem test_host_read :
    step (withHost { base with busy := true, ksv := true } (.memRead 5 (busAddr 0x00C) 4)) =
      .next { base with
        busy := true, ksv := true, schedule := [.engine]
        hosts := [{ prog := [.memRead 5 (busAddr 0x00C) 4], pc := 1, vars := [(5, 3)] }] } := by
  obtain ⟨h1, h2⟩ := admitted_busAddr 0x00C rfl (by decide)
  simp [step, hostTurn, withHost, setTurns, hostAt, hostStmt, access, h1, h2, busOffset_busAddr 0x00C (by decide)]
  rfl

/-- The host's branch, taken and not taken (30_encoding.md R99). -/
theorem test_host_branch :
    (HostAgent.branch { prog := [], pc := 3, vars := [(1, 6)] } 0 1 4 9).pc = 9 ∧
    (HostAgent.branch { prog := [], pc := 3, vars := [(1, 6)] } 0 1 1 9).pc = 4 := by decide

/-- The pseudo-statement `fn TAU, a` as its statements, `wait` being a poll and a branch back to it
(30_encoding.md R100). -/
theorem test_pseudo_fn :
    Asm.fn 4 9 .tau 7 =
      [.memWrite (busAddr 0x020) 4 7, .memWrite (busAddr 0x008) 4 0x10, .memRead 9 (busAddr 0x00C) 4, .bnz 9 1 6] := rfl

/-- The end of program P3, with a branch ahead and a label after it (95_test_vectors.md). -/
theorem test_assemble_labels :
    Asm.assemble [.code (.wait 9), .bnz 10 4 "lost", .code (.stmt (Asm.rd 11 .cmd)), .bnz 10 2 "done", .label "lost",
        .code (.stmt (Asm.rd 11 .cmd)), .code .clrovr, .label "done", .code (.stmt (Asm.rd 12 .status))] =
      some [Asm.rd 9 .status, .bnz 9 1 0, .bnz 10 4 5, Asm.rd 11 .cmd, .bnz 10 2 7, Asm.rd 11 .cmd, Asm.clrovr,
        Asm.rd 12 .status] := rfl

/-- A label at the end names the index past the last statement, and a branch to no label does not assemble (log 18). -/
theorem test_assemble_label_ends :
    Asm.assemble [.bnz 0 1 "end", .label "end"] = some [.bnz 0 1 1] ∧ Asm.assemble [.bnz 0 1 "end"] = none := ⟨rfl, rfl⟩

/-! ## Witnesses: concrete states that meet the hypotheses of the obligations -/

theorem test_witness_IllegalWordsRaiseIllegalCommand :
    (pending 0x00010000 kat 0 .direct).schedule = .engine :: [] ∧ (pending 0x00010000 kat 0 .direct).busy = true ∧
    (decode (pending 0x00010000 kat 0 .direct).p.cmd = .error .reservedBits) ∧
    (decode (pending 0x16 kat 0 .direct).p.cmd = .error .unassignedOpcode) ∧
    (decode (pending 0x110 kat 0 .direct).p.cmd = .error .lengthNotZero) := by decide

theorem test_witness_StepRunsDecodedCommand :
    (pending 0x13 kat 0 .table).busy = true ∧ decode (pending 0x13 kat 0 .table).p.cmd = .ok .trnd ∧
    (setTurns (pending 0x13 kat 0 .table) []).schedule = [] ∧ (pending 0x13 kat 0 .table).schedule = .engine :: [] := by
  decide

theorem test_witness_EmptyScheduleIsEngineTurn :
    (setTurns (pending 0x04 kat 0 .direct) []).schedule = [] ∧ (setTurns (pending 0x04 kat 0 .direct) []).busy = true := by
  decide

theorem test_witness_IssuedWordRunsAtNextEngineTurn :
    let st := Stmt.memWrite (busAddr 0x008) 4 0x1001
    (withHost base st).busy = false ∧ (withHost base st).schedule = .host 0 :: .engine :: [] ∧
    (withHost base st).hosts[0]? = some (hostAt st) ∧ (hostAt st).prog[(hostAt st).pc]? = some st ∧
    decode 0x1001 = .ok (.keyexp 16) := ⟨rfl, rfl, rfl, rfl, rfl⟩

theorem test_witness_IdleEngineHoldsState :
    base.busy = false ∧ base.schedule = [] ∧ (setTurns base [.engine, .reset]).schedule = .engine :: [.reset] := by decide

/-- One pending word for each outcome code of `OutcomeCodeByPriority`, at the edges of its ranges; two of them are
over a schedule. -/
theorem test_witness_OutcomeCodeByPriority :
    [(0x00010F02#32, 4#4), (0x0F01, 1), (0x1101, 1), (0x1001, 0), (0x1102, 2), (0x1002, 3), (0x1003, 3), (0x00, 0),
      (0x10, 0), (0x15, 0), (0x0100, 4), (0x0115, 4), (0x04, 4), (0x0F, 4), (0x16, 4), (0xFF, 4)].all
      (fun p => (pending p.1 kat 0 .direct).busy && (pending p.1 kat 0 .direct).schedule == [.engine] &&
        (done (pending p.1 kat 0 .direct)).err == p.2) = true ∧
    (done (scheduled 0x1002 kat .direct)).err = 0 ∧ (done (scheduled 0x00FF1002 kat .direct)).err = 4 := by decide

theorem test_witness_ErrorsArePrecise :
    (pending 0x1002 kat 0 .direct).schedule = .engine :: [] ∧ (pending 0x1002 kat 0 .direct).busy = true ∧
    next? (step (pending 0x1002 kat 0 .direct)) = some (done (pending 0x1002 kat 0 .direct)) ∧
    (done (pending 0x1002 kat 0 .direct)).err ≠ 0 := by decide

theorem test_witness_AcceptedIssueLatchesOperands :
    let st := Stmt.memWrite (Config.sm4Base + 0x008) 4 0xFFFFFFFF
    (withHost base st).busy = false ∧ (withHost base st).schedule = .host 0 :: [.engine] ∧
    (withHost base st).hosts[0]? = some (hostAt st) ∧ (hostAt st).prog[(hostAt st).pc]? = some st := ⟨rfl, rfl, rfl, rfl⟩

/-- The first clause: a CMD write while BUSY = 1. The second: OVR cleared by reset, and by a write of 4 to STATUS. -/
theorem test_witness_OverrunIsDroppedAndSticky :
    (let st := Stmt.memWrite (Config.sm4Base + 0x008) 4 0
     (withHost (keyed 0x1001) st).busy = true ∧ (withHost (keyed 0x1001) st).schedule = .host 0 :: [.engine] ∧
     (withHost (keyed 0x1001) st).hosts[0]? = some (hostAt st) ∧ (hostAt st).prog[(hostAt st).pc]? = some st) ∧
    (∃ s t : State, s.ovr = true ∧ step s = .next t ∧ t.ovr = false ∧ s.schedule = [.reset]) ∧
    (∃ s t : State, s.ovr = true ∧ step s = .next t ∧ t.ovr = false ∧ s.schedule = [.host 0, .engine]) :=
  ⟨⟨rfl, rfl, rfl, rfl⟩, ⟨{ base with ovr := true, schedule := [.reset] }, _, rfl, rfl, rfl, rfl⟩,
    ⟨withHost { base with ovr := true } (.memWrite (busAddr 0x00C) 4 4), _, rfl,
      step_wr _ 0x00C _ rfl (by decide), rfl, rfl⟩⟩

/-- KSV cleared by reset, and a new schedule built by KEYEXP. -/
theorem test_witness_OnlyKeyexpBuildsAndOnlyResetClearsSchedule :
    (∃ s t : State, step s = .next t ∧ s.ksv = true ∧ t.ksv = false) ∧
    next? (step (keyed 0x1001)) = some (done (keyed 0x1001)) ∧ (keyed 0x1001).ksv = false ∧
    (done (keyed 0x1001)).ksv = true ∧ (done (keyed 0x1001)).rkf ≠ (keyed 0x1001).rkf :=
  ⟨⟨{ base with ksv := true, schedule := [.reset] }, _, rfl, rfl, rfl⟩, by decide⟩

/-- DOUT changed by reset, by ENC, by DEC and by a function command. -/
theorem test_witness_OnlyCompletionsWriteDout :
    (∃ s t : State, step s = .next t ∧ t.dout ≠ s.dout ∧ s.schedule = [.reset]) ∧
    [scheduled 0x1002 kat .direct, scheduled 0x1003 kat .table, pending 0x15 kat 1 .table].all
      (fun s => next? (step s) == some (done s) && (done s).dout != s.dout) = true :=
  ⟨⟨{ base with dout := kat, schedule := [.reset] }, _, rfl, by decide, rfl⟩, by decide⟩

/-- A KEY3 and a CONFIG changed by a host write, and an ARG changed by reset. -/
theorem test_witness_OnlyHostsWriteOperandRegisters :
    (∃ s t : State, step s = .next t ∧ regValue t (.key 3) ≠ regValue s (.key 3)) ∧
    (∃ s t : State, step s = .next t ∧ regValue t .config ≠ regValue s .config) ∧
    (∃ s t : State, step s = .next t ∧ regValue t .arg ≠ regValue s .arg) :=
  ⟨⟨withHost base (.memWrite (busAddr 0x01C) 4 5), _, step_wr _ 0x01C _ rfl (by decide), by decide +revert⟩,
    ⟨withHost base (.memWrite (busAddr 0x004) 4 1), _, step_wr _ 0x004 _ rfl (by decide), by decide +revert⟩,
    ⟨{ base with arg := 1, schedule := [.reset] }, _, rfl, by decide⟩⟩

/-- BUSY set by an issue, BUSY cleared and ERR written by a completion, OVR set by an overrun. -/
theorem test_witness_StatusFlagsHaveTheirWriters :
    (∃ s t : State, step s = .next t ∧ s.busy = false ∧ t.busy = true ∧ s.err ≠ t.err) ∧
    (∃ s t : State, step s = .next t ∧ s.busy = true ∧ t.busy = false ∧ s.err ≠ t.err) ∧
    (∃ s t : State, step s = .next t ∧ s.ovr = false ∧ t.ovr = true) :=
  ⟨⟨withHost { base with err := 3 } (.memWrite (busAddr 0x008) 4 0), _, step_wr _ 0x008 _ rfl (by decide), rfl, rfl,
      by decide⟩,
    ⟨pending 0x04 kat 0 .direct, _, rfl, rfl, rfl, by decide⟩,
    ⟨withHost (keyed 0x1001) (.memWrite (busAddr 0x008) 4 0), _, step_wr _ 0x008 _ rfl (by decide), rfl, rfl⟩⟩

theorem test_witness_PendingCommandIsUndisturbed :
    ∃ s t : State, s.busy = true ∧ step s = .next t ∧ t.busy = true ∧ t.key ≠ s.key :=
  ⟨withHost (keyed 0x1001) (.memWrite (busAddr 0x010) 4 0), _, rfl, step_wr _ 0x010 _ rfl (by decide), rfl, by decide⟩

theorem test_witness_ResultsDependOnlyOnLatchAndSchedule :
    let s := scheduled 0x1002 kat .direct
    let u := { s with key := katOut, din := katOut, arg := 1, strat := .table, ovr := true, schedule := [] }
    u.p = s.p ∧ u.rkf = s.rkf ∧ u.ksv = s.ksv ∧ u.dout = s.dout ∧ u ≠ s := by decide

theorem test_witness_UnspecifiedRoundKeysReachNoResult :
    (keyed 0x1001).ksv = false ∧ next? (step (keyed 0x1001)) = some (done (keyed 0x1001)) ∧
    (done (keyed 0x1001)).ksv = true ∧ (keyed 0x1001).rkf ≠ Vector.replicate 32 1 ∧
    (∃ s, s.ksv = false ∧ step s = .fault .outsideWindow) ∧ (∃ s, s.ksv = false ∧ step s = .refused .accessNotAdmitted) :=
  ⟨rfl, by decide, by decide, by decide,
    ⟨withHost base (.memWrite (Config.sm4Base + 0x2000) 4 0), rfl, by
      simp [step, hostTurn, withHost, setTurns, hostAt, hostStmt, access, inWindow, busOffset]⟩,
    ⟨withHost base (.memWrite Config.sm4Base 2 0), rfl, by
      simp [step, hostTurn, withHost, setTurns, hostAt, hostStmt, access, inWindow, admitted, busOffset]⟩⟩

/-- A consistent state with a pending command over a built schedule. -/
theorem test_witness_StepKeepsInvariant :
    Consistent (scheduled 0x1002 kat .direct) ∧
    next? (step (scheduled 0x1002 kat .direct)) = some (done (scheduled 0x1002 kat .direct)) :=
  ⟨⟨by decide, by decide, by decide, by decide, fun _ => ⟨kat, rfl⟩, by simp [scheduled, pending, acceptIssue, base,
    State.reset, HostAgent.idle, HostAgent.rising]⟩, by decide⟩

theorem test_witness_PendingCommandCompletes :
    (pending 0x15 kat 1 .table).busy = true ∧ Turn.reset ∉ (pending 0x15 kat 1 .table).schedule ∧
    next? (runSteps 2 (pending 0x15 kat 1 .table)) = some (done (pending 0x15 kat 1 .table)) := by decide

theorem test_witness_FinalStateIsStable :
    Final (setTurns base [.host 0, .engine]) ∧ (∀ ts, (setTurns base [.host 0, .engine]).schedule ≠ .reset :: ts) :=
  ⟨⟨by simp [base, setTurns, State.reset, HostAgent.idle, HostAgent.finished], rfl⟩, by simp [setTurns]⟩

theorem test_witness_RegisterMapHasNoAlias :
    [(0x000, Reg.id), (0x00C, .status), (0x01C, .key 3), (0x020, .din 0), (0x030, .arg), (0x04C, .dout 3), (0x17C, .rk 31),
      (0x200, .fk 0), (0x2FC, .ck 31), (0x4FC, .sboxw 63), (0x1000, .ct 0 0), (0x13FC, .ct 0 255), (0x1400, .ct 1 0),
      (0x1FFC, .ct 3 255)].all (fun p => Reg.ofOffset p.1 == some p.2) = true := by decide

/-- Both ends of the six reserved ranges, and the registers that border on them. -/
theorem test_witness_ReservedSlotsReadZeroIgnoreWrites :
    [0x034, 0x03C, 0x050, 0x0FC, 0x180, 0x1FC, 0x210, 0x27C, 0x300, 0x3FC, 0x500, 0x0FFC].all
      (fun off => off % 4 == 0 && Reg.ofOffset off == none) = true ∧
    [0x030, 0x040, 0x04C, 0x100, 0x17C, 0x200, 0x20C, 0x280, 0x2FC, 0x400, 0x4FC, 0x1000].all
      (fun off => (Reg.ofOffset off).isSome) = true := by decide

theorem test_witness_HostWritesActByAccessKind :
    (Reg.ct 3 255 = .id ∨ (∃ i, Reg.ct 3 255 = .dout i) ∨ (∃ i, Reg.ct 3 255 = .rk i) ∨ (∃ i, Reg.ct 3 255 = .fk i) ∨
      (∃ i, Reg.ct 3 255 = .ck i) ∨ (∃ w, Reg.ct 3 255 = .sboxw w) ∨ ∃ j b, Reg.ct 3 255 = .ct j b) ∧
    ((∃ i, Reg.din 3 = .key i) ∨ (∃ i, Reg.din 3 = .din i) ∨ Reg.din 3 = .arg) :=
  ⟨by simp, by simp⟩

/-- A narrow access, an unaligned access and accesses outside the window at both edges (20_memory.md R62). -/
theorem test_witness_AccessesNotAdmittedAreRefused :
    (∀ st : Stmt, (withHost base st).schedule = .host 0 :: [.engine] ∧ (withHost base st).hosts[0]? = some (hostAt st) ∧
      (hostAt st).prog[(hostAt st).pc]? = some st) ∧
    (Config.sm4Base + 0 - Config.sm4Base).toNat < 0x2000 ∧ (Config.sm4Base + 0x1FFE - Config.sm4Base).toNat % 4 ≠ 0 ∧
    (Config.sm4Base + 0x1FFE - Config.sm4Base).toNat < 0x2000 ∧ 0x2000 ≤ (Config.sm4Base + 0x2000 - Config.sm4Base).toNat ∧
    0x2000 ≤ (Config.sm4Base + 0xFFFFFFFC - Config.sm4Base).toNat :=
  ⟨fun _ => ⟨rfl, rfl, rfl⟩, by simp, by simp, by simp, by simp, by simp⟩

/-- A write at the first offset and a read at the last. -/
theorem test_witness_HostTurnDoesOneBusAccess :
    (let st := Stmt.memWrite (Config.sm4Base + BitVec.ofNat 32 0) 4 1
     (withHost base st).hosts[0]? = some (hostAt st) ∧ (hostAt st).prog[(hostAt st).pc]? = some st) ∧
    (let st := Stmt.memRead 7 (Config.sm4Base + BitVec.ofNat 32 0x1FFC) 4
     (withHost base st).hosts[0]? = some (hostAt st) ∧ (hostAt st).prog[(hostAt st).pc]? = some st) ∧
    0x1FFC % 4 = 0 := ⟨⟨rfl, rfl⟩, ⟨rfl, rfl⟩, rfl⟩

theorem test_witness_AssembledStatementsReachTheirRegisters :
    ∀ st ∈ [Asm.wr (.key 3) 5, Asm.cmd (.enc 16), Asm.rd 2 (.ct 3 255)],
      (withHost base st).schedule = .host 0 :: [.engine] ∧ (withHost base st).hosts[0]? = some (hostAt st) ∧
      (hostAt st).prog[(hostAt st).pc]? = some st :=
  fun _ _ => ⟨rfl, rfl, rfl⟩

theorem test_witness_ReadsReturnValueWithoutSideEffect :
    base.ksv = false ∧ (∀ i, Reg.status ≠ .rk i) ∧ (scheduled 0 kat .direct).ksv = true ∧
    (∃ i, Reg.rk 31 = .rk i) :=
  ⟨rfl, by simp, rfl, _, rfl⟩

theorem test_witness_StatusFieldsReadBack :
    [0, 1, 2, 3, 4, 7, 8, 31].all (fun n => decide (n < 32) &&
      (statusWord { base with busy := true, ksv := true, ovr := true, err := 9 }).getLsbD n ==
        [0, 1, 2, 4, 7].contains n) = true := by decide

theorem test_witness_HostBranchFollowsMask :
    let st := Stmt.bnz 0 1 5
    (withHost base st).schedule = .host 0 :: [.engine] ∧ (withHost base st).hosts[0]? = some (hostAt st) ∧
      (hostAt st).prog[(hostAt st).pc]? = some st := ⟨rfl, rfl, rfl⟩

/-- The hypotheses on byte, bit and row numbers hold at both ends of their ranges, and `DiffusionIs…` names L and L′. -/
theorem test_witness_index_ranges :
    (0 < 4 ∧ 3 < 4) ∧ (0 < 32 ∧ 31 < 32) ∧ (1 ≤ 1 ∧ 1 ≤ 3 ∧ 3 ≤ 3) ∧ (diffL ∈ [diffL, diffL'] ∧ diffL' ∈ [diffL, diffL']) := by
  simp

/-- A block encrypted by one strategy, and a state that has latched the result to decrypt it by the other. -/
theorem test_witness_DecryptionInvertsEncryption :
    let s := scheduled 0x1002 kat .direct
    let u := scheduled 0x1003 katOut .table
    s.ksv = true ∧ u.ksv = true ∧ u.rkf = s.rkf ∧
    (∃ t, exec (.enc 16) s = .next t ∧ u.p.din = t.dout) ∧
    (∃ t, exec (.dec 16) (scheduled 0x1003 katOut .direct) = .next t ∧ (scheduled 0x1002 kat .table).p.din = t.dout) :=
  ⟨rfl, rfl, rfl, ⟨_, rfl, by decide⟩, ⟨_, rfl, by decide⟩⟩

theorem test_witness_KeyexpWrongLengthKeepsSchedule : 0 ≠ 16 ∧ 15 ≠ 16 ∧ 17 ≠ 16 ∧ 255 ≠ 16 := by decide

theorem test_witness_EncRunsRoundsInGenerationOrder :
    (scheduled 0x1002 kat .table).ksv = true ∧ (done (scheduled 0x1002 kat .table)).dout = katOut := by decide

theorem test_witness_DecRunsRoundsBackToFront :
    (scheduled 0x1003 katOut .direct).ksv = true ∧ (done (scheduled 0x1003 katOut .direct)).dout = kat := by decide

theorem test_witness_BlockCommandErrorsLeaveDout :
    (Instr.dec 15 ∈ [Instr.enc 15, Instr.dec 15] ∧ 15 ≠ 16) ∧ (Instr.enc 17 ∈ [Instr.enc 17, Instr.dec 17] ∧ 17 ≠ 16) ∧
    (Instr.enc 16 ∈ [Instr.enc 16, Instr.dec 16] ∧ base.ksv = false) := by decide

end Sys2Proof.Tests
end

section
/-! The register map both ways (10_state.md R20, R28): what an offset names, and what an access at a register's own
offset does. -/

namespace Sys2Proof.Machine

/-- A row of the register map names a register at each of its own slots. -/
theorem group_of_mem {base k n : Nat} {f : Fin k → Reg} (h : base ≤ n ∧ n - base < k) :
    group base k f n = some (f ⟨n - base, h.2⟩) :=
  (group_eq_some ..).2 ⟨h, rfl⟩

/-- What a row of the register map names stands at its own offset, if every register of the row does. -/
theorem group_offset {base k n : Nat} {f : Fin k → Reg} {r : Reg} (h : group base k f n = some r)
    (hf : ∀ i, (f i).offset = 4 * (base + i.val)) : r.offset = 4 * n := by
  obtain ⟨hn, rfl⟩ := (group_eq_some ..).1 h
  rw [hf]
  simp only
  omega

/-- The combined tables stand row after row: slot `m` of them is at offset 0x1000 + 4·m. -/
theorem ctEntry_offset (m : Fin 1024) : (ctEntry m).offset = 4 * (0x400 + m.val) := by
  simp only [ctEntry, Reg.offset]
  omega

/-- A slot that names a register is the slot of that register's offset. -/
theorem offset_of_ofSlot {n : Nat} {r : Reg} (h : Reg.ofSlot n = some r) : r.offset = 4 * n := by
  simp only [Reg.ofSlot, Option.or_eq_some_iff] at h
  rcases h with h | ⟨-, h | ⟨-, h | ⟨-, h | ⟨-, h | ⟨-, h | ⟨-, h | ⟨-, h | ⟨-, h | ⟨-, h | ⟨-, h | ⟨-, h | ⟨-, h⟩⟩⟩⟩⟩⟩⟩⟩⟩⟩⟩⟩
  case inr => exact group_offset h ctEntry_offset
  all_goals exact group_offset h fun i => by simp only [Reg.offset]; omega

/-- The slot of a register's offset names that register: the rows before it do not reach it, and its own does. -/
theorem ofOffset_offset (r : Reg) : Reg.ofOffset r.offset = some r := by
  have skip {base k n : Nat} {f : Fin k → Reg} (h : n < base ∨ base + k ≤ n) : group base k f n = none :=
    (group_eq_none ..).2 (by omega)
  cases r with
  | id | config | cmd | status | arg => rfl
  | key | din | dout | rk | fk | ck | sboxw | ct =>
    simp (disch := omega) only [Reg.ofOffset, Reg.offset, Reg.ofSlot, skip, group_of_mem, Option.none_or,
      Option.some_or, Option.some.injEq, ctEntry, Reg.key.injEq, Reg.din.injEq, Reg.dout.injEq, Reg.rk.injEq,
      Reg.fk.injEq, Reg.ck.injEq, Reg.sboxw.injEq, Reg.ct.injEq, Fin.ext_iff]
    omega

/-- An aligned offset that names a register is that register's own (10_state.md R28). -/
theorem offset_of_ofOffset {off : Nat} {r : Reg} (ha : off % 4 = 0) (h : Reg.ofOffset off = some r) : r.offset = off := by
  rw [offset_of_ofSlot h]
  omega

/-- A register stands at a word-aligned offset of the window (10_state.md R20). -/
theorem offset_aligned (r : Reg) : r.offset % 4 = 0 ∧ r.offset ≤ 0x1FFC := by
  cases r with
  | id | config | cmd | status | arg => decide
  | key | din | dout | rk | fk | ck | sboxw | ct => simp only [Reg.offset]; omega

/-- A read at a register's offset reads that register. -/
@[simp] theorem readOffset_offset (s : State) (r : Reg) : readOffset s r.offset = readReg s r := by
  simp only [readOffset, ofOffset_offset]

/-- A write at a register's offset writes that register. -/
@[simp] theorem writeOffset_offset (s : State) (r : Reg) (v : Word) : writeOffset s r.offset v = writeReg s r v := by
  simp only [writeOffset, ofOffset_offset]

/-- Settles O25: the register map and the offsets are inverse to each other. -/
theorem registerMapHasNoAlias : Obligations.RegisterMapHasNoAlias :=
  ⟨fun r => ⟨ofOffset_offset r, offset_aligned r⟩, fun _ _ ha _ h => offset_of_ofOffset ha h⟩

/-- Settles O33: offset 0x000 is the offset of ID. -/
theorem identityRegisterIsConstant : Obligations.IdentityRegisterIsConstant := by
  intro s v
  have hr : readOffset s 0x000 = (0x534D3401, s) := readOffset_offset s .id
  have hw : writeOffset s 0x000 v = s := writeOffset_offset s .id v
  simp [hr, hw]

end Sys2Proof.Machine
end

section
/-! Registers as a host reads them: the fields of STATUS and the ROM windows (10_state.md R25, R32). -/

namespace Sys2Proof.Machine

/-- A flag's word has the flag in bit 0 and every other bit 0. -/
theorem getLsbD_flagWord (b : Bool) (n : Nat) : (flagWord b).getLsbD n = (decide (n = 0) && b) := by
  cases b <;> simp [flagWord, BitVec.getLsbD_one]

/-- Settles O32: each flag's word is one bit, and ERR is four bits wide. -/
theorem statusFieldsReadBack : Obligations.StatusFieldsReadBack := by
  intro s n hn
  simp only [regValue, statusWord, BitVec.getLsbD_or, BitVec.getLsbD_shiftLeft, BitVec.getLsbD_setWidth,
    getLsbD_flagWord]
  by_cases hlow : n < 8
  · interval_cases n <;> simp
  · have herr : s.err.getLsbD (n - 4) = false := BitVec.getLsbD_of_ge _ _ (by omega)
    simp [herr, show n ≠ 0 by omega, show n ≠ 1 by omega, show n ≠ 2 by omega, show ¬ n ≤ 7 by omega,
      show n - 1 ≠ 0 by omega, show n - 2 ≠ 0 by omega]

/-- A byte shifted to byte position `j` of a word that is 0 elsewhere. -/
theorem byteJ_setWidth_shiftLeft (x : Byte) (j n : Nat) (hj : j < 4) (hn : n < 4) :
    byteJ (x.setWidth 32 <<< (24 - 8 * j)) n = if n = j then x else 0 := by
  apply BitVec.eq_of_getLsbD_eq
  intro k hk
  rw [getLsbD_byteJ, BitVec.getLsbD_shiftLeft, BitVec.getLsbD_setWidth]
  rcases Nat.lt_trichotomy n j with h | rfl | h
  · have hx : x.getLsbD (24 - 8 * n + k - (24 - 8 * j)) = false := BitVec.getLsbD_of_ge _ _ (by omega)
    simp [hx, Nat.ne_of_lt h]
  · simp [hk, show 24 - 8 * n + k < 32 by omega, show k < 32 by omega]
  · have hlt : 24 - 8 * n + k < 24 - 8 * j := by omega
    simp [hlt, Nat.ne_of_gt h]

/-- Settles O34: SBOXWw is packed byte by byte, and CT's byte is shifted into place before L. -/
theorem romWindowsShowConstantTables : Obligations.RomWindowsShowConstantTables := by
  refine fun s => ⟨fun w j hj => ?_, fun _ => rfl, fun _ => rfl, fun j b => ?_⟩
  · obtain ⟨h0, h1, h2, h3⟩ := byteJ_be32 (sbox (BitVec.ofNat 8 (4 * w.val))) (sbox (BitVec.ofNat 8 (4 * w.val + 1)))
      (sbox (BitVec.ofNat 8 (4 * w.val + 2))) (sbox (BitVec.ofNat 8 (4 * w.val + 3)))
    interval_cases j
    exacts [h0, h1, h2, h3]
  · exact ⟨_, rfl, fun n hn => byteJ_setWidth_shiftLeft _ _ _ j.isLt hn⟩

end Sys2Proof.Machine
end

section
/-! What a step can do, said once in the terms of 10_state.md R39 and 20_memory.md R71: reset, the engine's turn, a host's
turn that leaves every register alone, or a host's write. -/

namespace Sys2Proof.Machine

/-- The next event is the platform's reset. -/
def ResetDue (s : State) : Prop := ∃ ts, s.schedule = .reset :: ts

/-- The engine has the turn: it is the next event, or no event is left (log 2). -/
def EngineDue (s : State) : Prop := s.schedule = [] ∨ ∃ ts, s.schedule = .engine :: ts

/-- The next event is a host's write at offset `off` of the window. -/
def HostWrites (s : State) (off : Nat) : Prop :=
  ∃ k ts h addr v, s.schedule = .host k :: ts ∧ s.hosts[k]? = some h ∧
    h.prog[h.pc]? = some (.memWrite addr 4 v) ∧ busOffset addr = off

/-- A host's turn that goes on is a write, or leaves every register of the machine as it is. -/
theorem hostTurn_writes_or_quiet {s t : State} {k : Nat} (ht : hostTurn s k = .next t) :
    (∃ h addr v hs, s.hosts[k]? = some h ∧ h.prog[h.pc]? = some (.memWrite addr 4 v) ∧ busOffset addr % 4 = 0 ∧
      t = setHosts (writeOffset s (busOffset addr) v) hs) ∨
    ∃ d hs, t = { s with draws := d, hosts := hs } := by
  rcases hostTurn_cases s t k ht with
    ⟨rfl, -⟩ | ⟨h, hh, ⟨addr, v, hp, ha, rfl⟩ | ⟨n, addr, -, -, rfl⟩ | ⟨n, mask, target, -, rfl⟩⟩
  · exact .inr ⟨_, _, rfl⟩
  · simp only [admitted, decide_eq_true_eq] at ha
    exact .inl ⟨h, addr, v, _, hh, hp, ha.2.1, rfl⟩
  · rcases readOffset_state s (busOffset addr) with hr | ⟨-, hr⟩ <;> rw [hr] <;> exact .inr ⟨_, _, rfl⟩
  · exact .inr ⟨_, _, rfl⟩

/-- Everything a step can do when it goes on. -/
theorem step_effect {s t : State} (h : step s = .next t) :
    (ResetDue s ∧ ∃ ts, t = resetEngine (setTurns s ts)) ∨
    (EngineDue s ∧ ∃ ts, engineTurn (setTurns s ts) = .next t) ∨
    (∃ off v hs ts, HostWrites s off ∧ off % 4 = 0 ∧ t = setHosts (writeOffset (setTurns s ts) off v) hs) ∨
    ∃ d hs ts, t = { s with draws := d, hosts := hs, schedule := ts } := by
  rcases step_cases s t h with ⟨ts, hs, rfl⟩ | ⟨hs, he⟩ | ⟨ts, hs, he⟩ | ⟨k, ts, hs, hh⟩
  · exact .inl ⟨⟨ts, hs⟩, ts, rfl⟩
  · exact .inr (.inl ⟨.inl hs, s.schedule, he⟩)
  · exact .inr (.inl ⟨.inr ⟨ts, hs⟩, ts, he⟩)
  · rcases hostTurn_writes_or_quiet hh with ⟨a, addr, v, hs', ha, hp, hal, rfl⟩ | ⟨d, hs', rfl⟩
    · exact .inr (.inr (.inl ⟨_, v, hs', ts, ⟨k, ts, a, addr, v, hs, ha, hp, rfl⟩, hal, rfl⟩))
    · exact .inr (.inr (.inr ⟨d, hs', ts, rfl⟩))

/-- Everything the engine's turn can leave: the idle engine its state, a completion an error's code alone, or the result
of the command the latched word decodes to (44_cipher_engine.md R202). -/
theorem engineTurn_effect {s t : State} (h : engineTurn s = .next t) :
    (s.busy = false ∧ t = s) ∨
    (s.busy = true ∧
      ((∃ e, t = raiseError s e) ∨
       t = finish s ∨
       t = finish (setSchedule s (expand s.p.key)) ∨
       (s.ksv = true ∧ (decode s.p.cmd = .ok (.enc 16) ∨ decode s.p.cmd = .ok (.dec 16)) ∧ ∃ x, t = finish (setDout s x)) ∨
       (∃ i ∈ [Instr.tau, .lin, .link, .trnd, .tkey, .frnd], decode s.p.cmd = .ok i ∧ ∃ v, t = finish (setDout0 s v)))) := by
  rcases engineTurn_cases s with ⟨hb, he⟩ | ⟨hb, -, he⟩ | ⟨hb, i, hd, he⟩ <;>
    rw [he] at h
  · exact .inl ⟨hb, by simpa using h.symm⟩
  · exact .inr ⟨hb, .inl ⟨_, by simpa using h.symm⟩⟩
  · refine .inr ⟨hb, ?_⟩
    rcases exec_cases i s with ⟨rfl, hx⟩ | ⟨rfl, hx⟩ | ⟨rfl, hk, hx⟩ | ⟨rfl, hk, hx⟩ | ⟨v, hi, hx⟩ | ⟨e, hx, -⟩ <;>
      obtain rfl : _ = t := by simpa [hx] using h
    · exact .inr (.inl rfl)
    · exact .inr (.inr (.inl rfl))
    · exact .inr (.inr (.inr (.inl ⟨hk, .inl hd, _, rfl⟩)))
    · exact .inr (.inr (.inr (.inl ⟨hk, .inr hd, _, rfl⟩)))
    · exact .inr (.inr (.inr (.inr ⟨i, hi, hd, v, rfl⟩)))
    · exact .inl ⟨e, rfl⟩

/-- No completion touches the operand registers, CONFIG or OVR. -/
theorem engineTurn_frame {s t : State} (h : engineTurn s = .next t) :
    t.key = s.key ∧ t.din = s.din ∧ t.arg = s.arg ∧ t.strat = s.strat ∧ t.ovr = s.ovr := by
  rcases engineTurn_effect h with
    ⟨-, rfl⟩ | ⟨-, ⟨e, rfl⟩ | rfl | rfl | ⟨-, -, x, rfl⟩ | ⟨i, -, -, v, rfl⟩⟩ <;>
  exact ⟨rfl, rfl, rfl, rfl, rfl⟩

/-- After its turn the engine is not busy. -/
theorem engineTurn_busy {s t : State} (h : engineTurn s = .next t) : t.busy = false := by
  rcases engineTurn_effect h with
    ⟨hb, rfl⟩ | ⟨-, ⟨e, rfl⟩ | rfl | rfl | ⟨-, -, x, rfl⟩ | ⟨i, -, -, v, rfl⟩⟩
  · exact hb
  all_goals rfl

/-- The codes of 60_exceptions.md R230 end at 4. -/
theorem ErrorCode.code_le (e : ErrorCode) : e.code.toNat ≤ 4 := by cases e <;> decide

/-- What no host write touches (20_memory.md R65). -/
theorem writeOffset_frame (s : State) (off : Nat) (v : Word) :
    (writeOffset s off v).dout = s.dout ∧ (writeOffset s off v).rkf = s.rkf ∧ (writeOffset s off v).ksv = s.ksv ∧
      (writeOffset s off v).hosts = s.hosts := by
  rcases writeOffset_cases s off v with
    h | ⟨-, h⟩ | ⟨-, -, h⟩ | ⟨-, -, h⟩ | ⟨-, -, h⟩ | ⟨i, -, h⟩ | ⟨i, -, h⟩ | ⟨-, h⟩ <;>
  rw [h] <;> exact ⟨rfl, rfl, rfl, rfl⟩

@[simp] theorem writeOffset_dout (s : State) (off : Nat) (v : Word) : (writeOffset s off v).dout = s.dout :=
  let ⟨h, _, _, _⟩ := writeOffset_frame s off v
  h
@[simp] theorem writeOffset_rkf (s : State) (off : Nat) (v : Word) : (writeOffset s off v).rkf = s.rkf :=
  let ⟨_, h, _, _⟩ := writeOffset_frame s off v
  h
@[simp] theorem writeOffset_ksv (s : State) (off : Nat) (v : Word) : (writeOffset s off v).ksv = s.ksv :=
  let ⟨_, _, h, _⟩ := writeOffset_frame s off v
  h
@[simp] theorem writeOffset_hosts (s : State) (off : Nat) (v : Word) : (writeOffset s off v).hosts = s.hosts :=
  let ⟨_, _, _, h⟩ := writeOffset_frame s off v
  h

/-- A host write is an issue attempt at CMD's offset, or leaves BUSY, ERR, the CMD readback and the latch and sets no OVR
(10_state.md R33, R35). -/
theorem writeOffset_issues_or_quiet (s : State) (off : Nat) (v : Word) :
    (Reg.ofOffset off = some .cmd ∧
      ((s.busy = true ∧ writeOffset s off v = overrun s) ∨ (s.busy = false ∧ writeOffset s off v = acceptIssue s v))) ∨
    ((writeOffset s off v).busy = s.busy ∧ (writeOffset s off v).err = s.err ∧ (writeOffset s off v).p = s.p ∧
      (writeOffset s off v).cmdLast = s.cmdLast ∧ ((writeOffset s off v).ovr = true → s.ovr = true)) := by
  rcases writeOffset_cases s off v with
    h | ⟨-, h⟩ | ⟨hr, hb, h⟩ | ⟨hr, hb, h⟩ | ⟨-, -, h⟩ | ⟨i, -, h⟩ | ⟨i, -, h⟩ | ⟨-, h⟩
  case inr.inr.inl => exact .inl ⟨hr, .inl ⟨hb, h⟩⟩
  case inr.inr.inr.inl => exact .inl ⟨hr, .inr ⟨hb, h⟩⟩
  all_goals rw [h]; exact .inr ⟨rfl, rfl, rfl, rfl, by simp⟩

end Sys2Proof.Machine
end

section
/-! The registers' writers: DOUT, the operand registers, the flags of STATUS, and what a pending command keeps
(10_state.md R29, R33, R35, R39). -/

namespace Sys2Proof.Machine

/-- Settles O14: neither a host's turn nor an idle engine, NOP, KEYEXP or an error writes DOUT. -/
theorem onlyCompletionsWriteDout : Obligations.OnlyCompletionsWriteDout := by
  intro s t h hne
  rcases step_effect h with
    ⟨hr, -⟩ | ⟨-, ts, he⟩ | ⟨off, v, hs, ts, -, -, rfl⟩ | ⟨d, hs, ts, rfl⟩
  · exact .inl hr
  · rcases engineTurn_effect he with
      ⟨-, rfl⟩ | ⟨hb, ⟨e, rfl⟩ | rfl | rfl | ⟨hk, hd | hd, x, rfl⟩ | ⟨i, hi, hd, v, rfl⟩⟩
    · exact absurd rfl hne
    · exact absurd rfl hne
    · exact absurd rfl hne
    · exact absurd rfl hne
    · exact .inr ⟨hb, rfl, rfl, .inl ⟨hd, hk⟩⟩
    · exact .inr ⟨hb, rfl, rfl, .inr (.inl ⟨hd, hk⟩)⟩
    · exact .inr ⟨hb, rfl, rfl, .inr (.inr ⟨i, hi, hd, by simp⟩)⟩
  · simp at hne
  · exact absurd rfl hne

/-- The registers that only a host writes: KEY0..KEY3, DIN0..DIN3, ARG and CONFIG (10_state.md R39). -/
def Reg.HostWritten (r : Reg) : Prop := (∃ i, r = .key i) ∨ (∃ i, r = .din i) ∨ r = .arg ∨ r = .config

/-- The host-written registers show four fields of the state. -/
theorem regValue_of_hostWritten {s t : State} {r : Reg} (hr : r.HostWritten) (hkey : t.key = s.key)
    (hdin : t.din = s.din) (harg : t.arg = s.arg) (hstrat : t.strat = s.strat) : regValue t r = regValue s r := by
  rcases hr with ⟨i, rfl⟩ | ⟨i, rfl⟩ | rfl | rfl <;> simp only [regValue, hkey, hdin, harg, hstrat]

/-- A host write changes a host-written register only at an offset that names it. -/
theorem regValue_writeOffset {s : State} {off : Nat} {v : Word} {r : Reg} (hr : r.HostWritten)
    (hoff : Reg.ofOffset off ≠ some r) : regValue (writeOffset s off v) r = regValue s r := by
  rcases writeOffset_cases s off v with
    h | ⟨hc, h⟩ | ⟨-, -, h⟩ | ⟨-, -, h⟩ | ⟨-, -, h⟩ | ⟨i, hi, h⟩ | ⟨i, hi, h⟩ | ⟨ha, h⟩ <;> rw [h]
  case inr.inl | inr.inr.inr.inr.inr.inl | inr.inr.inr.inr.inr.inr.inl | inr.inr.inr.inr.inr.inr.inr =>
    rcases hr with ⟨j, rfl⟩ | ⟨j, rfl⟩ | rfl | rfl <;> simp_all [regValue, Fin.ext_iff]
  all_goals exact regValue_of_hostWritten hr rfl rfl rfl rfl

/-- Settles O15: an aligned offset that names the register is the register's own. -/
theorem onlyHostsWriteOperandRegisters : Obligations.OnlyHostsWriteOperandRegisters := by
  intro s t r h hr hne
  rcases step_effect h with
    ⟨hreset, -⟩ | ⟨-, ts, he⟩ | ⟨off, v, hs, ts, hw, hal, rfl⟩ | ⟨d, hs, ts, rfl⟩
  · exact .inl hreset
  · obtain ⟨hkey, hdin, harg, hstrat, -⟩ := engineTurn_frame he
    exact absurd (regValue_of_hostWritten hr hkey hdin harg hstrat) hne
  · by_cases hoff : Reg.ofOffset off = some r
    · exact .inr (offset_of_ofOffset hal hoff ▸ hw)
    · have hsame : regValue (setHosts (writeOffset (setTurns s ts) off v) hs) r = regValue s r :=
        calc regValue (setHosts (writeOffset (setTurns s ts) off v) hs) r
          _ = regValue (writeOffset (setTurns s ts) off v) r := regValue_of_hostWritten hr rfl rfl rfl rfl
          _ = regValue (setTurns s ts) r := regValue_writeOffset hr hoff
          _ = regValue s r := regValue_of_hostWritten hr rfl rfl rfl rfl
      exact absurd hsame hne
  · exact absurd (regValue_of_hostWritten hr rfl rfl rfl rfl) hne

/-- Settles O16: a host write that changes BUSY or ERR, or sets OVR, is an issue attempt at CMD's offset. -/
theorem statusFlagsHaveTheirWriters : Obligations.StatusFlagsHaveTheirWriters := by
  intro s t h cmdWrite engineTurn reset
  rcases step_effect h with
    ⟨hreset, ts, rfl⟩ | ⟨hengine, ts, he⟩ | ⟨off, v, hs, ts, hw, hal, rfl⟩ | ⟨d, hs, ts, rfl⟩
  · exact ⟨by simp, fun _ _ => .inl hreset, by simp, fun _ => .inl hreset⟩
  · have hb : t.busy = false := engineTurn_busy he
    obtain ⟨-, -, -, -, hovr⟩ := engineTurn_frame he
    refine ⟨by simp [hb], fun _ _ => .inr hengine, by simp_all, fun herr => .inr (.inl ?_)⟩
    rcases engineTurn_effect he with ⟨-, rfl⟩ | ⟨hsb, -⟩
    · exact absurd rfl herr
    · exact ⟨hsb, hb, hengine⟩
  · rcases writeOffset_issues_or_quiet (setTurns s ts) off v with ⟨hr, hu⟩ | ⟨hb, herr, -, -, hovr⟩
    · have hcmd : HostWrites s Reg.cmd.offset := by rwa [offset_of_ofOffset hal hr]
      rcases hu with ⟨hb, hu⟩ | ⟨hb, hu⟩ <;> rw [hu]
      · exact ⟨fun _ _ => hcmd, by simp_all, fun _ _ => ⟨hb, hcmd⟩, by simp⟩
      · exact ⟨fun _ _ => hcmd, by simp_all, by simp_all, fun _ => .inr (.inr ⟨hb, rfl, rfl, hcmd⟩)⟩
    · exact ⟨by simp_all, by simp_all, fun h0 h1 => absurd (hovr h1) (by simp [h0]), by simp_all⟩
  · simp_all

/-- Settles O17: the engine's turn and reset clear BUSY, and a host write while BUSY = 1 issues nothing. -/
theorem pendingCommandIsUndisturbed : Obligations.PendingCommandIsUndisturbed := by
  intro s t hs h ht
  rcases step_effect h with
    ⟨-, ts, rfl⟩ | ⟨-, ts, he⟩ | ⟨off, v, hs', ts, -, -, rfl⟩ | ⟨d, hs', ts, rfl⟩
  · simp at ht
  · simp [engineTurn_busy he] at ht
  · rcases writeOffset_issues_or_quiet (setTurns s ts) off v with ⟨-, ⟨-, hu⟩ | ⟨hb, -⟩⟩ | ⟨-, herr, hp, hc, -⟩
    · rw [hu]
      exact ⟨rfl, rfl, rfl, rfl, rfl, rfl⟩
    · simp [hs] at hb
    · simp [herr, hp, hc]
  · exact ⟨rfl, rfl, rfl, rfl, rfl, rfl⟩

end Sys2Proof.Machine
end

section
/-! The invariant `Consistent`: each event keeps it (10_state.md R24, R25, R31; 60_exceptions.md R230). -/

namespace Sys2Proof.Machine

/-- The events to come are none of the invariant's business. -/
theorem Consistent.setTurns {s : State} (hs : Consistent s) (ts : List Turn) : Consistent (setTurns s ts) := { hs with }

/-- An idle engine with a legal code, over a schedule that is unbuilt or expanded, with the hosts of a consistent
state. -/
theorem Consistent.of_idle {s t : State} (hs : Consistent s) (hhosts : t.hosts = s.hosts) (hbusy : t.busy = false)
    (herr : t.err.toNat ≤ 4) (hbuilt : t.ksv = true → ∃ mk, t.rkf = expand mk) : Consistent t where
  some_host := hhosts ▸ hs.some_host
  err_legal := herr
  busy_err := by simp [hbusy]
  busy_cmd := by simp [hbusy]
  schedule_built := hbuilt
  vars_rising := hhosts ▸ hs.vars_rising

/-- Reset keeps the invariant: it clears KSV and leaves the hosts. -/
theorem Consistent.resetEngine {s : State} (hs : Consistent s) : Consistent (resetEngine s) :=
  hs.of_idle rfl rfl (by simp) (by simp)

/-- The engine's turn keeps the invariant: the codes are those of R230, and only KEYEXP sets KSV. -/
theorem Consistent.engineTurn {s t : State} (hs : Consistent s) (h : engineTurn s = .next t) : Consistent t := by
  rcases engineTurn_effect h with
    ⟨-, rfl⟩ | ⟨-, ⟨e, rfl⟩ | rfl | rfl | ⟨-, -, x, rfl⟩ | ⟨i, -, -, v, rfl⟩⟩
  · exact hs
  · exact hs.of_idle rfl rfl e.code_le hs.schedule_built
  · exact hs.of_idle rfl rfl (by simp) hs.schedule_built
  · exact hs.of_idle rfl rfl (by simp) fun _ => ⟨s.p.key, rfl⟩
  · exact hs.of_idle rfl rfl (by simp) hs.schedule_built
  · exact hs.of_idle rfl rfl (by simp) hs.schedule_built

/-- A host write keeps the invariant: an accepted issue latches the word that CMD reads back and clears ERR, and no other
write touches BUSY, ERR, CMD or the latch. -/
theorem Consistent.writeOffset {s : State} (hs : Consistent s) (off : Nat) (v : Word) :
    Consistent (writeOffset s off v) := by
  rcases writeOffset_issues_or_quiet s off v with ⟨-, ⟨-, h⟩ | ⟨-, h⟩⟩ | ⟨hbusy, herr, hp, hcmd, -⟩
  · rw [h]
    exact { hs with }
  · rw [h]
    exact { hs with err_legal := by simp, busy_err := fun _ => rfl, busy_cmd := fun _ => rfl }
  · exact {
      some_host := by simpa using hs.some_host
      err_legal := by simpa [herr] using hs.err_legal
      busy_err := by simpa [herr, hbusy] using hs.busy_err
      busy_cmd := by simpa [hp, hcmd, hbusy] using hs.busy_cmd
      schedule_built := by simpa using hs.schedule_built
      vars_rising := by simpa using hs.vars_rising }

/-- A host read keeps the invariant. -/
theorem Consistent.readOffset {s : State} (hs : Consistent s) (off : Nat) : Consistent (readOffset s off).2 := by
  rcases readOffset_state s off with h | ⟨-, h⟩ <;> rw [h] <;> exact { hs with }

/-- A host that stays canonical may replace a host of a consistent state. -/
theorem Consistent.setHost {s : State} (hs : Consistent s) (k : Nat) {h : HostAgent} (hh : h.rising) :
    Consistent (setHost s k h) :=
  { hs with
    some_host := by simpa using hs.some_host
    vars_rising := fun a ha => (List.mem_or_eq_of_mem_set ha).elim (hs.vars_rising a) (· ▸ hh) }

/-- A branch moves the host's pc only. -/
theorem HostAgent.branch_vars (h : HostAgent) (k n : Nat) (mask : Word) (target : Nat) :
    (h.branch k n mask target).vars = h.vars := by
  unfold HostAgent.branch
  split <;> rfl

/-- A host's turn keeps the invariant: its access does, and its variables stay in order. -/
theorem Consistent.hostTurn {s t : State} {k : Nat} (hs : Consistent s) (ht : hostTurn s k = .next t) :
    Consistent t := by
  rcases hostTurn_cases s t k ht with
    ⟨rfl, -⟩ | ⟨h, hh, ⟨addr, v, -, -, rfl⟩ | ⟨n, addr, -, -, rfl⟩ | ⟨n, mask, target, -, rfl⟩⟩
  · exact hs
  all_goals have hrising : h.rising := hs.vars_rising h (List.mem_of_getElem? hh)
  · exact (hs.writeOffset _ v).setHost k hrising
  · exact (hs.readOffset _).setHost k (setVar_rising n _ _ hrising)
  · refine hs.setHost k ?_
    rwa [HostAgent.rising, HostAgent.branch_vars]

/-- Settles O22: after reset BUSY = 0, KSV = 0 and the one host has no variables. -/
theorem resetMeetsInvariant : Obligations.ResetMeetsInvariant where
  some_host := List.cons_ne_nil _ _
  err_legal := by decide
  busy_err := by simp [State.reset]
  busy_cmd := by simp [State.reset]
  schedule_built := by simp [State.reset]
  vars_rising := by simp [State.reset, HostAgent.idle, HostAgent.rising]

/-- Settles O21: reset, the engine's turn and a host's turn each keep the invariant. -/
theorem stepKeepsInvariant : Obligations.StepKeepsInvariant := by
  intro s t hs h
  rcases step_cases s t h with ⟨ts, -, rfl⟩ | ⟨-, he⟩ | ⟨ts, -, he⟩ | ⟨k, ts, -, hh⟩
  · exact (hs.setTurns ts).resetEngine
  · exact hs.engineTurn he
  · exact (hs.setTurns ts).engineTurn he
  · exact (hs.setTurns ts).hostTurn hh

end Sys2Proof.Machine
end

section
/-! Noninterference of RKF while KSV = 0 (10_state.md R36): the same event from two states that differ in RKF alone. -/

namespace Sys2Proof.Machine

/-- The state with another round-key file. -/
def setRkf (s : State) (rk : Vector Word 32) : State := { s with rkf := rk }

/-- Two outcomes alike but for RKF, and in RKF too if KSV is set. -/
inductive SameButRkf : Result → Result → Prop where
  | next (t : State) (rk : Vector Word 32) (h : t.ksv = true → rk = t.rkf) : SameButRkf (.next t) (.next (setRkf t rk))
  | fault (f : Fault) : SameButRkf (.fault f) (.fault f)
  | refused (r : Refusal) : SameButRkf (.refused r) (.refused r)

/-- Two states with KSV = 0 that differ in RKF alone are alike. -/
theorem SameButRkf.of_no_schedule {t u : State} (hk : t.ksv = false) (rk : Vector Word 32) (hu : u = setRkf t rk) :
    SameButRkf (.next t) (.next u) :=
  hu ▸ .next t rk (by simp [hk])

/-- While KSV = 0 a command does not read RKF: ENC and DEC raise an error, KEYEXP replaces all of it. -/
theorem exec_sameButRkf (i : Instr) {s : State} (hk : s.ksv = false) (rk : Vector Word 32) :
    SameButRkf (exec i s) (exec i (setRkf s rk)) := by
  cases i with
  | nop | tau | lin | link | trnd | tkey | frnd => exact .of_no_schedule hk rk rfl
  | keyexp len =>
    simp only [exec, execKeyexp]
    split
    · exact .next (finish (setSchedule s (expand s.p.key))) _ fun _ => rfl
    · exact .of_no_schedule hk rk rfl
  | enc len | dec len =>
    have hk' : (setRkf s rk).ksv = false := hk
    simp only [exec, execEnc, execDec, cryptBlock, hk, hk', Bool.false_eq_true, if_false]
    split <;> exact .of_no_schedule hk rk rfl

/-- While KSV = 0 the engine's turn does not read RKF. -/
theorem engineTurn_sameButRkf {s : State} (hk : s.ksv = false) (rk : Vector Word 32) :
    SameButRkf (engineTurn s) (engineTurn (setRkf s rk)) := by
  have hb : (setRkf s rk).busy = s.busy := rfl
  have hp : (setRkf s rk).p = s.p := rfl
  simp only [engineTurn, complete, hb, hp]
  cases s.busy with
  | false => exact .of_no_schedule hk rk rfl
  | true =>
    cases decode s.p.cmd with
    | error e => exact .of_no_schedule hk rk rfl
    | ok i => exact exec_sameButRkf i hk rk

/-- A host write does not read RKF. -/
theorem writeOffset_setRkf (s : State) (off : Nat) (v : Word) (rk : Vector Word 32) :
    writeOffset (setRkf s rk) off v = setRkf (writeOffset s off v) rk := by
  unfold writeOffset
  cases Reg.ofOffset off with
  | none => rfl
  | some r =>
    cases r with
    | cmd =>
      have hb : (setRkf s rk).busy = s.busy := rfl
      simp only [writeReg, issue, hb]
      split <;> rfl
    | status =>
      simp only [writeReg, writeStatus]
      split <;> rfl
    | _ => rfl

/-- While KSV = 0 a host read gives a value that RKF has no part in (log 4). -/
theorem readOffset_setRkf {s : State} (hk : s.ksv = false) (off : Nat) (rk : Vector Word 32) :
    readOffset (setRkf s rk) off = ((readOffset s off).1, setRkf (readOffset s off).2 rk) := by
  unfold readOffset
  cases Reg.ofOffset off with
  | none => rfl
  | some r =>
    cases r with
    | rk i => simp [readReg, readRk, hk, setRkf]
    | _ => rfl

/-- No host read changes KSV. -/
@[simp] theorem readOffset_ksv (s : State) (off : Nat) : (readOffset s off).2.ksv = s.ksv := by
  rcases readOffset_state s off with h | ⟨-, h⟩ <;> rw [h]

/-- An access is alike if what it does at its offset is. -/
theorem access_sameButRkf (addr : Word) (width : Nat) {act act' : Nat → State}
    (h : ∀ off, SameButRkf (.next (act off)) (.next (act' off))) :
    SameButRkf (access addr width act) (access addr width act') := by
  unfold access
  split
  · split
    · exact h _
    · exact .refused _
  · exact .fault _

/-- While KSV = 0 a host's statement does not show RKF. -/
theorem hostStmt_sameButRkf {s : State} (hk : s.ksv = false) (k : Nat) (h : HostAgent) (st : Stmt)
    (rk : Vector Word 32) : SameButRkf (hostStmt s k h st) (hostStmt (setRkf s rk) k h st) := by
  cases st with
  | memWrite addr width v =>
    simp only [hostStmt, writeOffset_setRkf]
    exact access_sameButRkf addr width fun off => .of_no_schedule (by simp [hk]) rk rfl
  | memRead n addr width =>
    simp only [hostStmt, readOffset_setRkf hk]
    exact access_sameButRkf addr width fun off => .of_no_schedule (by simp [hk]) rk rfl
  | bnz n mask target => exact .of_no_schedule hk rk rfl

/-- While KSV = 0 a host's turn does not show RKF. -/
theorem hostTurn_sameButRkf {s : State} (hk : s.ksv = false) (k : Nat) (rk : Vector Word 32) :
    SameButRkf (hostTurn s k) (hostTurn (setRkf s rk) k) := by
  have hh : (setRkf s rk).hosts = s.hosts := rfl
  simp only [hostTurn, hh]
  cases s.hosts[k]? with
  | none => exact .of_no_schedule hk rk rfl
  | some h =>
    dsimp only
    cases h.prog[h.pc]? with
    | none => exact .of_no_schedule hk rk rfl
    | some st => exact hostStmt_sameButRkf hk k h st rk

/-- While KSV = 0 a step does not show RKF. -/
theorem step_sameButRkf {s : State} (hk : s.ksv = false) (rk : Vector Word 32) :
    SameButRkf (step s) (step (setRkf s rk)) := by
  have hsch : (setRkf s rk).schedule = s.schedule := rfl
  unfold step
  rw [hsch]
  match s.schedule with
  | [] => exact engineTurn_sameButRkf hk rk
  | .engine :: ts => exact engineTurn_sameButRkf (s := setTurns s ts) hk rk
  | .host k :: ts => exact hostTurn_sameButRkf (s := setTurns s ts) hk k rk
  | .reset :: ts => exact .next (resetEngine (setTurns s ts)) _ fun _ => rfl

/-- Settles O20: the two steps are alike but for RKF. -/
theorem unspecifiedRoundKeysReachNoResult : Obligations.UnspecifiedRoundKeysReachNoResult := by
  intro s rk hk
  have h : SameButRkf (step s) (step { s with rkf := rk }) := step_sameButRkf hk rk
  generalize step s = o, step { s with rkf := rk } = o' at h
  cases h with
  | next t rk' h =>
    refine ⟨fun t' ht => ?_, by simp, by simp⟩
    obtain rfl : t = t' := by simpa using ht
    exact ⟨rk', rfl, h⟩
  | fault f => exact ⟨by simp, by simp, by simp⟩
  | refused r => exact ⟨by simp, by simp, by simp⟩

end Sys2Proof.Machine
end

section
/-! What a host's access does at each offset (20_memory.md R63 to R68): the reserved slots, a write by the register's
access kind, and the value a read returns. -/

namespace Sys2Proof.Machine

/-- The six reserved ranges of the window (20_memory.md R64). -/
def ReservedOffset (off : Nat) : Prop :=
  (0x034 ≤ off ∧ off ≤ 0x03C) ∨ (0x050 ≤ off ∧ off ≤ 0x0FC) ∨ (0x180 ≤ off ∧ off ≤ 0x1FC) ∨
    (0x210 ≤ off ∧ off ≤ 0x27C) ∨ (0x300 ≤ off ∧ off ≤ 0x3FC) ∨ (0x500 ≤ off ∧ off ≤ 0x0FFC)

/-- The reserved ranges are the gaps between the rows of the register map. -/
theorem ofOffset_eq_none_iff_reserved {off : Nat} (ha : off % 4 = 0) (h : off ≤ 0x1FFC) :
    Reg.ofOffset off = none ↔ ReservedOffset off := by
  simp only [Reg.ofOffset, Reg.ofSlot, Option.or_eq_none_iff, group_eq_none, ReservedOffset]
  omega

/-- An aligned offset names no register exactly if no register stands there. -/
theorem ofOffset_eq_none_iff_forall_ne {off : Nat} (ha : off % 4 = 0) :
    Reg.ofOffset off = none ↔ ∀ r : Reg, r.offset ≠ off := by
  constructor
  · rintro h r rfl
    simp [ofOffset_offset] at h
  · exact fun h => Option.eq_none_iff_forall_ne_some.2 fun r hr => h r (offset_of_ofOffset ha hr)

/-- A read of a reserved slot returns 0 and changes nothing (20_memory.md R64). -/
theorem readOffset_of_none {off : Nat} (h : Reg.ofOffset off = none) (s : State) : readOffset s off = (0, s) := by
  simp only [readOffset, h]

/-- A write to a reserved slot changes nothing (20_memory.md R64). -/
theorem writeOffset_of_none {off : Nat} (h : Reg.ofOffset off = none) (s : State) (v : Word) :
    writeOffset s off v = s := by
  simp only [writeOffset, h]

/-- Settles O26: the offsets that name no register are the gaps between the rows of the register map. -/
theorem reservedSlotsReadZeroIgnoreWrites : Obligations.ReservedSlotsReadZeroIgnoreWrites := by
  intro off ha h
  have hiff : Reg.ofOffset off = none ↔ ReservedOffset off := ofOffset_eq_none_iff_reserved ha h
  refine ⟨(ofOffset_eq_none_iff_forall_ne ha).symm.trans hiff, fun hr s v => ?_⟩
  have hnone : Reg.ofOffset off = none := hiff.2 hr
  exact ⟨readOffset_of_none hnone s, writeOffset_of_none hnone s v⟩

/-- CONFIG reads back bit 0 of the word written (10_state.md R23). -/
theorem configWord_stratOfWord (v : Word) : configWord (stratOfWord v) = v &&& 1 := by
  change configWord (stratOfWord v) = v &&& 1#32
  rw [BitVec.and_one_eq_setWidth_ofBool_getLsbD, stratOfWord]
  cases v.getLsbD 0 <;> rfl

/-- A write to a register that only a host writes changes that register alone (10_state.md R39). -/
theorem Reg.HostWritten.frame_writeReg {r : Reg} (hr : r.HostWritten) (s : State) (v : Word) :
    Frame [r] s (writeReg s r v) := by
  have other (r' : Reg) (h : r' ≠ r) : regValue (writeReg s r v) r' = regValue s r' := by
    cases r' with
    | key | din | arg | config =>
      rw [← writeOffset_offset]
      exact regValue_writeOffset (by simp [Reg.HostWritten]) (by simpa [ofOffset_offset] using h.symm)
    | id | cmd | status | dout | rk | fk | ck | sboxw | ct =>
      rcases hr with ⟨i, rfl⟩ | ⟨i, rfl⟩ | rfl | rfl <;> rfl
  have regs (r' : Reg) (h : r' ∉ [r]) : regValue (writeReg s r v) r' = regValue s r' :=
    other r' (List.ne_of_not_mem_cons h)
  rcases hr with ⟨i, rfl⟩ | ⟨i, rfl⟩ | rfl | rfl <;> exact ⟨regs, rfl, rfl, rfl, rfl⟩

/-- A write to STATUS clears OVR if bit 2 is set (10_state.md R25). -/
theorem writeStatus_eq (s : State) (v : Word) : writeStatus s v = { s with ovr := s.ovr && !v.getLsbD 2 } := by
  unfold writeStatus
  split <;> simp_all

/-- Settles O27: at a register's own offset a write acts on that register, by its access kind. -/
theorem hostWritesActByAccessKind : Obligations.HostWritesActByAccessKind := by
  refine fun s v => ⟨fun r hr => ?readOnly, fun r hr => ?operand, ?config, ?status, ?cmd⟩
  case readOnly =>
    rw [writeOffset_offset]
    rcases hr with rfl | ⟨i, rfl⟩ | ⟨i, rfl⟩ | ⟨i, rfl⟩ | ⟨i, rfl⟩ | ⟨w, rfl⟩ | ⟨j, b, rfl⟩ <;> rfl
  case operand =>
    have hw : r.HostWritten := hr.imp_right fun hr => hr.imp_right .inl
    rw [writeOffset_offset]
    refine ⟨?_, hw.frame_writeReg s v⟩
    rcases hr with ⟨i, rfl⟩ | ⟨i, rfl⟩ | rfl <;> simp [writeReg, regValue]
  case config =>
    have hw : Reg.config.HostWritten := .inr (.inr (.inr rfl))
    rw [show writeOffset s 0x004 v = writeReg s .config v from writeOffset_offset s .config v]
    exact ⟨configWord_stratOfWord v, hw.frame_writeReg s v⟩
  case status => exact (writeOffset_offset s .status v).trans (writeStatus_eq s v)
  case cmd => exact writeOffset_offset s .cmd v

/-- A read returns the register's value and changes nothing, but for RK0..RK31 while KSV = 0 (20_memory.md R63, R68). -/
theorem readReg_eq {s : State} {r : Reg} (h : s.ksv = true ∨ ∀ i, r ≠ .rk i) : readReg s r = (regValue s r, s) := by
  cases r with
  | rk i =>
    have hk : s.ksv = true := h.resolve_right fun h => h i rfl
    simp [readReg, readRk, regValue, hk]
  | _ => rfl

/-- While KSV = 0 a read of RK0..RK31 draws a free value (10_state.md R36; log 4). -/
theorem readReg_rk_of_no_schedule {s : State} (hk : s.ksv = false) (i : Fin 32) :
    readReg s (.rk i) = (Config.rkDraw s.draws, { s with draws := s.draws + 1 }) := by
  simp [readReg, readRk, hk]

/-- Settles O31: a read at a register's own offset reads that register. -/
theorem readsReturnValueWithoutSideEffect : Obligations.ReadsReturnValueWithoutSideEffect := by
  refine fun s r => ⟨fun h => ?_, ?_⟩
  · rw [readOffset_offset, readReg_eq h]
  · rintro i rfl hk
    rw [readOffset_offset, readReg_rk_of_no_schedule hk]

end Sys2Proof.Machine
end

section
/-! A host's turn as a bus access: which accesses stop, and how (20_memory.md R60, R62; logs 9 and 10). -/

namespace Sys2Proof.Machine

/-- A host's turn executes its next statement (30_encoding.md R98, R99). -/
theorem step_eq_hostStmt {s : State} {k : Nat} {h : HostAgent} {ts : List Turn} {st : Stmt}
    (hs : s.schedule = .host k :: ts) (hh : s.hosts[k]? = some h) (hp : h.prog[h.pc]? = some st) :
    step s = hostStmt (setTurns s ts) k h st := by
  simp only [step, hs, hostTurn, setTurns_hosts, hh, hp]

/-- A host's turn at a read or a write is an access to the address that the statement names (30_encoding.md R98). -/
theorem step_eq_access {s : State} {k : Nat} {h : HostAgent} {ts : List Turn} {addr : Word} {width n : Nat} {v : Word}
    (hs : s.schedule = .host k :: ts) (hh : s.hosts[k]? = some h)
    (hp : h.prog[h.pc]? = some (.memWrite addr width v) ∨ h.prog[h.pc]? = some (.memRead n addr width)) :
    ∃ act, step s = access addr width act := by
  rcases hp with hp | hp <;> rw [step_eq_hostStmt hs hh hp, hostStmt] <;> exact ⟨_, rfl⟩

/-- An access in the window that is not admitted is refused (20_memory.md R62; log 9). -/
theorem access_eq_refused {addr : Word} {width : Nat} (hw : inWindow addr = true) (ha : admitted addr width = false)
    (act : Nat → State) : access addr width act = .refused .accessNotAdmitted := by
  simp [access, hw, ha]

/-- An access outside the window faults (20_memory.md R60; log 10). -/
theorem access_eq_fault {addr : Word} (hw : inWindow addr = false) (width : Nat) (act : Nat → State) :
    access addr width act = .fault .outsideWindow := by
  simp [access, hw]

/-- Settles O28: a host's turn is an access, and an access of another width or alignment is not admitted. -/
theorem accessesNotAdmittedAreRefused : Obligations.AccessesNotAdmittedAreRefused := by
  intro s k h ts addr width n v hs hh hp
  obtain ⟨act, hstep⟩ := step_eq_access hs hh hp
  rw [hstep]
  have hoff : busOffset addr = (addr - Config.sm4Base).toNat := rfl
  constructor
  · intro hin hbad
    have hw : inWindow addr = true := decide_eq_true (by omega)
    have ha : admitted addr width = false := decide_eq_false (by omega)
    exact access_eq_refused hw ha act
  · intro hout
    have hw : inWindow addr = false := decide_eq_false (by omega)
    exact access_eq_fault hw width act

end Sys2Proof.Machine
end

section
/-! The command word: the fields and the word they make, and which words decode to what (30_encoding.md R90 to R95). -/

namespace Sys2Proof

/-- RSV as a number (30_encoding.md R90). -/
theorem toNat_fieldRsv (w : Word) : (fieldRsv w).toNat = w.toNat / 2 ^ 16 := by
  rw [fieldRsv, BitVec.extractLsb'_toNat, Nat.shiftRight_eq_div_pow]
  omega

/-- OPC as a number (30_encoding.md R90). -/
theorem toNat_fieldOpc (w : Word) : (fieldOpc w).toNat = w.toNat % 2 ^ 8 := by
  rw [fieldOpc, BitVec.extractLsb'_toNat, Nat.shiftRight_zero]

/-- LEN as a number (30_encoding.md R90). -/
theorem toNat_fieldLen (w : Word) : (fieldLen w).toNat = w.toNat / 2 ^ 8 % 2 ^ 8 := by
  rw [fieldLen, BitVec.extractLsb'_toNat, Nat.shiftRight_eq_div_pow]

/-- A word whose RSV is zero is the command word of its own LEN and OPC. -/
theorem commandWord_fields {w : Word} (h : fieldRsv w = 0) : commandWord (fieldLen w) (fieldOpc w) = w := by
  have hrsv (k : Nat) (hk : 16 ≤ k ∧ k < 32) : w.getLsbD k = false := by
    have hbit : (fieldRsv w).getLsbD (k - 16) = false := by simp [h]
    simpa [fieldRsv, BitVec.getLsbD_extractLsb', show k - 16 < 16 by omega, show 16 + (k - 16) = k by omega] using hbit
  apply BitVec.eq_of_getLsbD_eq
  intro k hk
  simp only [commandWord, fieldLen, fieldOpc, BitVec.getLsbD_or, BitVec.getLsbD_shiftLeft, BitVec.getLsbD_setWidth,
    BitVec.getLsbD_extractLsb']
  rcases Nat.lt_or_ge k 8 with h8 | h8
  · simp [h8, hk]
  · rcases Nat.lt_or_ge k 16 with h16 | h16
    · simp [hk, show ¬ k < 8 by omega, show k - 8 < 8 by omega, show k - 8 < 32 by omega, show 8 + (k - 8) = k by omega]
    · simp [hrsv k ⟨h16, hk⟩, show ¬ k < 8 by omega, show ¬ k - 8 < 8 by omega]

/-- The word of a command, by its fields (30_encoding.md R90, R93). -/
theorem encode_eq_iff (i : Instr) (w : Word) :
    encode i = w ↔ fieldRsv w = 0 ∧ fieldOpc w = opcode i ∧ fieldLen w = lenField i := by
  constructor
  · rintro rfl
    exact Laws.Encoding.fields_commandWord (lenField i) (opcode i)
  · rintro ⟨hrsv, hopc, hlen⟩
    rw [encode, ← hopc, ← hlen, commandWord_fields hrsv]

/-- A command without a length decodes from LEN = 0 alone (30_encoding.md R94). -/
theorem requireNoLength_eq_ok (len : Byte) (i j : Instr) : requireNoLength len j = .ok i ↔ len = 0 ∧ j = i := by
  unfold requireNoLength
  split <;> simp_all

/-- A command without a length is illegal exactly when LEN is not 0 (30_encoding.md R94). -/
theorem requireNoLength_eq_error (len : Byte) (j : Instr) : (∃ e, requireNoLength len j = .error e) ↔ len.toNat ≠ 0 := by
  have hlen : len = 0 ↔ len.toNat = 0 := BitVec.toNat_inj.symm
  unfold requireNoLength
  split <;> simp_all

/-- The opcode map gives back a command from its own OPC and LEN (30_encoding.md R93). -/
theorem decodeOp_opcode {i : Instr} (h : i.wellFormed = true) : decodeOp (opcode i) (lenField i) = .ok i := by
  cases i with
  | keyexp len | enc len | dec len =>
    have hlen : len % 256 = len := Nat.mod_eq_of_lt (by simp only [Instr.wellFormed, decide_eq_true_eq] at h; omega)
    simp [decodeOp, opcode, lenField, hlen]
  | nop | tau | lin | link | trnd | tkey | frnd => rfl

/-- What the opcode map names is well formed and has that OPC and that LEN (30_encoding.md R93). -/
theorem of_decodeOp_eq_ok {opc len : Byte} {i : Instr} (h : decodeOp opc len = .ok i) :
    i.wellFormed = true ∧ opc = opcode i ∧ len = lenField i := by
  unfold decodeOp at h
  split at h
  case h_2 | h_3 | h_4 =>
    obtain rfl := Except.ok.inj h
    exact ⟨decide_eq_true (by omega), rfl, by simp [lenField]⟩
  case h_11 => cases h
  all_goals
    obtain ⟨rfl, rfl⟩ := (requireNoLength_eq_ok ..).1 h
    exact ⟨rfl, rfl, rfl⟩

/-- The words that decode are those with RSV = 0 whose OPC and LEN the opcode map names (30_encoding.md R94). -/
theorem decode_eq_ok (w : Word) (i : Instr) :
    decode w = .ok i ↔ fieldRsv w = 0 ∧ decodeOp (fieldOpc w) (fieldLen w) = .ok i := by
  unfold decode
  split <;> simp_all

/-- Settles O1: a word of RSV = 0 is made of its OPC and LEN, and the opcode map is injective on them. -/
theorem decodeInvertsEncode : Obligations.DecodeInvertsEncode := by
  intro i w
  rw [decode_eq_ok, encode_eq_iff]
  constructor
  · rintro ⟨hrsv, hop⟩
    obtain ⟨hwf, hopc, hlen⟩ := of_decodeOp_eq_ok hop
    exact ⟨hwf, hrsv, hopc, hlen⟩
  · rintro ⟨hwf, hrsv, hopc, hlen⟩
    rw [hopc, hlen]
    exact ⟨hrsv, decodeOp_opcode hwf⟩

/-- What the opcode map makes illegal (30_encoding.md R95): an unassigned OPC, or a LEN that is not zero where the command
takes none. -/
theorem decodeOp_eq_error (opc len : Byte) :
    (∃ e, decodeOp opc len = .error e) ↔
      (4 ≤ opc.toNat ∧ opc.toNat ≤ 0x0F) ∨ 0x16 ≤ opc.toNat ∨
        (¬ (1 ≤ opc.toNat ∧ opc.toNat ≤ 3) ∧ len.toNat ≠ 0) := by
  unfold decodeOp
  split
  case h_2 | h_3 | h_4 => simp
  case h_11 =>
    simp only [imp_false, ← BitVec.toNat_inj, BitVec.toNat_ofNat] at *
    simp only [Except.error.injEq, exists_eq', true_iff]
    omega
  all_goals simp [requireNoLength_eq_error]

/-- The illegal words are those whose RSV is not zero and those whose OPC and LEN the opcode map makes illegal
(30_encoding.md R95). -/
theorem decode_eq_error (w : Word) :
    (∃ e, decode w = .error e) ↔ fieldRsv w ≠ 0 ∨ ∃ e, decodeOp (fieldOpc w) (fieldLen w) = .error e := by
  unfold decode
  split <;> simp_all

end Sys2Proof
end

section
/-! What the engine makes of a word at its turn: the illegal words, and the lengths that raise an error
(30_encoding.md R95, R97; 60_exceptions.md R231). -/

namespace Sys2Proof.Machine

/-- The engine's turn in the schedule is its turn in the state whose turn has been taken (20_memory.md R71). -/
theorem step_eq_engineTurn {s : State} {ts : List Turn} (hs : s.schedule = .engine :: ts) :
    step s = engineTurn (setTurns s ts) := by
  simp only [step, hs]

/-- A pending illegal word completes with IllegalCommand (44_cipher_engine.md R202). -/
theorem engineTurn_of_illegal {s : State} {e : DecodeError} (hb : s.busy = true) (hd : decode s.p.cmd = .error e) :
    engineTurn s = .next (raiseError s .illegalCommand) := by
  simp only [engineTurn, complete, hb, hd, if_true]

/-- Settles O2: the fields of the word as numbers, and the engine's turn at a word that does not decode. -/
theorem illegalWordsRaiseIllegalCommand : Obligations.IllegalWordsRaiseIllegalCommand := by
  refine ⟨fun w => ?_, fun s ts e hs hb hd => ?_⟩
  · have hrsv : fieldRsv w ≠ 0 ↔ (fieldRsv w).toNat ≠ 0 := by simp [← BitVec.toNat_inj]
    rw [decode_eq_error, decodeOp_eq_error, hrsv, toNat_fieldRsv, toNat_fieldOpc, toNat_fieldLen]
  · rw [step_eq_engineTurn hs]
    exact engineTurn_of_illegal (s := setTurns s ts) hb hd

/-- KEYEXP of any length but 16 raises InvalidKeyLength (42_key_schedule.md R166). -/
theorem exec_keyexp_of_ne {len : Nat} (h : len ≠ 16) (s : State) :
    exec (.keyexp len) s = .next (raiseError s .invalidKeyLength) := by
  simp [exec, execKeyexp, lengthOk, h]

/-- ENC of any length but 16 raises InvalidBlockLength (44_cipher_engine.md R206). -/
theorem exec_enc_of_ne {len : Nat} (h : len ≠ 16) (s : State) :
    exec (.enc len) s = .next (raiseError s .invalidBlockLength) := by
  simp [exec, execEnc, cryptBlock, lengthOk, h]

/-- Settles O3: each word of the table is the encoding of its well-formed command, so it decodes to it. -/
theorem usualCommandWords : Obligations.UsualCommandWords := by
  refine ⟨fun p hp => ?_, fun s => ?_⟩
  · have hword : p.1.wellFormed = true ∧ encode p.1 = p.2 := by
      revert p
      decide
    exact ⟨(decodeInvertsEncode ..).2 hword, hword.2⟩
  · exact ⟨⟨_, exec_keyexp_of_ne (by decide) s, rfl⟩, _, exec_enc_of_ne (by decide) s, rfl⟩

end Sys2Proof.Machine
end

section
/-! A host's turn that goes on: its one bus access and its branch, as whole states, and the assembler's statements
(30_encoding.md R98, R99). -/

namespace Sys2Proof.Machine

/-- An access to an aligned offset of the window is done at that offset (20_memory.md R62). -/
theorem access_busAddr {off : Nat} (ha : off % 4 = 0) (hle : off ≤ 0x1FFC) (act : Nat → State) :
    access (busAddr off) 4 act = .next (act off) := by
  rw [access_eq_next, busOffset_busAddr off (by omega)]
  exact ⟨(admitted_busAddr off ha hle).2, rfl⟩

/-- A host read does not see the events to come. -/
theorem readOffset_setTurns (s : State) (off : Nat) (ts : List Turn) :
    readOffset (setTurns s ts) off = ((readOffset s off).1, setTurns (readOffset s off).2 ts) := by
  unfold readOffset
  cases Reg.ofOffset off with
  | none => rfl
  | some r =>
    cases r with
    | rk i => cases hk : s.ksv <;> simp [readReg, readRk, hk, setTurns]
    | _ => rfl

/-- A host read changes at most the count of free values (20_memory.md R68; log 4). -/
theorem readOffset_state_eq (s : State) (off : Nat) :
    (readOffset s off).2 = { s with draws := (readOffset s off).2.draws } := by
  rcases readOffset_state s off with h | ⟨-, h⟩ <;> rw [h]

/-- A variable just read into holds the value read (30_encoding.md R99). -/
theorem HostAgent.var_store_self (h : HostAgent) (k n : Nat) (v : Word) : (h.store n v).var k n = v := by
  simp only [HostAgent.var, HostAgent.store, getVar_setVar_self]

/-- A read leaves the host's other variables (30_encoding.md R99). -/
theorem HostAgent.var_store_of_ne (h : HostAgent) (k : Nat) {n m : Nat} (hne : m ≠ n) (v : Word) :
    (h.store n v).var k m = h.var k m := by
  simp only [HostAgent.var, HostAgent.store, getVar_setVar_of_ne n m v h.vars hne]

/-- A branch is a move of the host's pc, to the label or to the next statement (30_encoding.md R99). -/
theorem HostAgent.branch_eq (h : HostAgent) (k n : Nat) (mask : Word) (target : Nat) :
    h.branch k n mask target = { h with pc := if h.var k n &&& mask = 0 then h.pc + 1 else target } := by
  unfold HostAgent.branch
  split <;> simp_all [HostAgent.advance]

section
variable {s : State} {k : Nat} {h : HostAgent} {ts : List Turn} {off : Nat} (hs : s.schedule = .host k :: ts)
  (hh : s.hosts[k]? = some h)
include hs hh

/-- A host's turn at a write of an aligned offset of the window (30_encoding.md R98). -/
theorem step_memWrite (ha : off % 4 = 0) (hle : off ≤ 0x1FFC) {v : Word}
    (hp : h.prog[h.pc]? = some (.memWrite (busAddr off) 4 v)) :
    step s = .next (setHosts (writeOffset (setTurns s ts) off v) (s.hosts.set k h.advance)) := by
  rw [step_eq_hostStmt hs hh hp, hostStmt, access_busAddr ha hle, setHost, writeOffset_hosts, setTurns_hosts]

/-- A host's turn at a read of an aligned offset of the window (30_encoding.md R98, R99). -/
theorem step_memRead (ha : off % 4 = 0) (hle : off ≤ 0x1FFC) {n : Nat}
    (hp : h.prog[h.pc]? = some (.memRead n (busAddr off) 4)) :
    step s = .next { s with
      schedule := ts
      draws := (readOffset s off).2.draws
      hosts := s.hosts.set k (h.store n (readOffset s off).1) } := by
  rw [step_eq_hostStmt hs hh hp, hostStmt, access_busAddr ha hle, readOffset_setTurns, readOffset_state_eq]
  rfl

end

/-- Settles O29: the access is admitted, so it is done at its offset. -/
theorem hostTurnDoesOneBusAccess : Obligations.HostTurnDoesOneBusAccess := by
  refine fun s k h ts off hs hh ha hle => ⟨fun v hp => step_memWrite hs hh ha hle hp, fun n hp => ?_⟩
  have hk : k < s.hosts.length := (List.getElem?_eq_some_iff.1 hh).1
  exact ⟨_, h.store n (readOffset s off).1, step_memRead hs hh ha hle hp, List.getElem?_set_self hk, rfl, rfl,
    h.var_store_self k n _, fun m hm => h.var_store_of_ne k hm _, rfl⟩

/-- Settles O30: a statement of the assembler is an access at its register's own offset. -/
theorem assembledStatementsReachTheirRegisters : Obligations.AssembledStatementsReachTheirRegisters := by
  intro s k h ts r hs hh
  have access (r : Reg) := hostTurnDoesOneBusAccess s k h ts r.offset hs hh (offset_aligned r).1 (offset_aligned r).2
  have write (r : Reg) (v : Word) (hp : h.prog[h.pc]? = some (Asm.wr r v)) :
      step s = .next { writeReg { s with schedule := ts } r v with
        hosts := s.hosts.set k { h with pc := h.pc + 1 } } := by
    simpa only [writeOffset_offset] using (access r).1 v hp
  refine ⟨write r, fun i hp => write .cmd (encode i) hp, fun n hp => ?_⟩
  obtain ⟨t, h', hstep, hget, hpc, -, hvar, -, -⟩ := (access r).2 n hp
  exact ⟨t, h', hstep, hget, hpc, by rwa [readOffset_offset] at hvar⟩

/-- Settles O35: the host's turn at a branch moves its pc only. -/
theorem hostBranchFollowsMask : Obligations.HostBranchFollowsMask := by
  intro s k h ts n target mask hs hh hp
  rw [step_eq_hostStmt hs hh hp, hostStmt, HostAgent.branch_eq]
  rfl

end Sys2Proof.Machine
end

section
/-! The constants (40_constants.md R125 to R127): rotation by the words' bits, the combined tables as rotations of the
first, and the known-answer vector. -/

namespace Sys2Proof.Machine

/-- Rotation distributes over exclusive or (00_scope.md R13). -/
theorem rotl_xor (x y : Word) {n : Nat} (hn : n < 32) : rotl (x ^^^ y) n = rotl x n ^^^ rotl y n := by
  apply BitVec.eq_of_getLsbD_eq
  intro k hk
  simp only [BitVec.getLsbD_xor, getLsbD_rotl _ n k hn hk]

/-- Two rotations commute (00_scope.md R13). -/
theorem rotl_comm (x : Word) {m n : Nat} (hm : m < 32) (hn : n < 32) : rotl (rotl x m) n = rotl (rotl x n) m := by
  apply BitVec.eq_of_getLsbD_eq
  intro k hk
  rw [getLsbD_rotl _ n k hn hk, getLsbD_rotl _ m _ hm (Nat.mod_lt _ (by decide)), getLsbD_rotl _ m k hm hk,
    getLsbD_rotl _ n _ hn (Nat.mod_lt _ (by decide))]
  congr 1
  omega

/-- L commutes with every rotation (41_substitution_diffusion.md R145). -/
theorem diffL_rotl (x : Word) {n : Nat} (hn : n < 32) : diffL (rotl x n) = rotl (diffL x) n := by
  simp (disch := omega) only [diffL, rotl_xor, rotl_comm x hn]

/-- A rotation right by 8·j bits moves every byte on by `j` positions, cyclically (00_scope.md R11, R13). -/
theorem byteJ_rotl (w : Word) {j n : Nat} (h1 : 1 ≤ j) (h3 : j ≤ 3) (hn : n < 4) :
    byteJ (rotl w (32 - 8 * j)) n = byteJ w ((n + 4 - j) % 4) := by
  apply BitVec.eq_of_getLsbD_eq
  intro k hk
  have hpos : (24 - 8 * n + k + (32 - (32 - 8 * j))) % 32 = 24 - 8 * ((n + 4 - j) % 4) + k := by omega
  rw [getLsbD_byteJ, getLsbD_byteJ, getLsbD_rotl _ _ _ (by omega) (by omega), hpos]

/-- A byte at byte position `j` is the byte at position 0 rotated right by 8·j bits (40_constants.md R126, R127). -/
theorem setWidth_shiftLeft_eq_rotl (x : Byte) {j : Nat} (h1 : 1 ≤ j) (h3 : j ≤ 3) :
    x.setWidth 32 <<< (24 - 8 * j) = rotl (x.setWidth 32 <<< (24 - 8 * 0)) (32 - 8 * j) := by
  apply eq_of_byteJ
  intro n hn
  have hpos : (n + 4 - j) % 4 = 0 ↔ n = j := by omega
  rw [byteJ_rotl _ h1 h3 hn, byteJ_setWidth_shiftLeft x j n (by omega) hn,
    byteJ_setWidth_shiftLeft x 0 _ (by decide) (Nat.mod_lt _ (by decide))]
  simp only [hpos]

/-- A row of the combined tables is the first row rotated right by 8·j bits (40_constants.md R127). -/
theorem ct_eq_rotl (b : Byte) {j : Nat} (h1 : 1 ≤ j) (h3 : j ≤ 3) : ct j b = rotl (ct 0 b) (32 - 8 * j) := by
  rw [ct, ct, setWidth_shiftLeft_eq_rotl _ h1 h3, diffL_rotl _ (by omega)]

/-- Settles O39: L commutes with the rotation that moves the substituted byte, and S[0] gives the spec's example. -/
theorem combinedTableRowsAreRotations : Obligations.CombinedTableRowsAreRotations :=
  ⟨fun _ b h1 h3 => ct_eq_rotl b h1 h3, by decide⟩

/-- Settles O41: the vector is one block under one key, so each strategy's rounds are evaluated in both directions. -/
theorem knownAnswerVector : Obligations.KnownAnswerVector := by
  intro st
  cases st with
  | direct => decide
  | table => decide

end Sys2Proof.Machine
end

section
/-! τ lane by lane, and L and L′ as sums of rotations over XOR (41_substitution_diffusion.md R141, R142, R145). -/

namespace Sys2Proof.Machine

/-- Byte j of τ(x) is S of byte j of x (41_substitution_diffusion.md R140, R141). -/
theorem byteJ_tau (x : Word) {j : Nat} (hj : j < 4) : byteJ (tau x) j = sbox (byteJ x j) := by
  obtain ⟨h0, h1, h2, h3⟩ := byteJ_be32 (sbox (byteJ x 0)) (sbox (byteJ x 1)) (sbox (byteJ x 2)) (sbox (byteJ x 3))
  interval_cases j
  exacts [h0, h1, h2, h3]

/-- The byte that S takes to `b`: the place of `b` in the table. Numbers are compared, which the kernel does at once. -/
def sboxInv (b : Byte) : Byte := BitVec.ofNat 8 (sboxRows.flatten.findIdx fun c => c.toNat == b.toNat)

set_option maxRecDepth 8000 in
/-- The table holds the image of each byte at that byte's place and at no earlier one (40_constants.md R121). -/
theorem sboxInv_sbox : ∀ b : Byte, sboxInv (sbox b) = b := by decide

/-- S takes no two bytes to the same one (40_constants.md R121). -/
theorem sbox_injective : Function.Injective sbox := Function.LeftInverse.injective sboxInv_sbox

/-- Words with the same image under τ agree in every lane. -/
theorem tau_injective : Function.Injective tau := by
  intro x y h
  apply eq_of_byteJ
  intro j hj
  apply sbox_injective
  rw [← byteJ_tau x hj, ← byteJ_tau y hj, h]

/-- Settles O36: each lane is packed from its own byte, and an injection of the finite set of words is a bijection. -/
theorem tauIsLaneWiseBijection : Obligations.TauIsLaneWiseBijection :=
  ⟨fun x _ hj => byteJ_tau x hj, Finite.injective_iff_bijective.1 tau_injective⟩

/-- Only the count modulo 32 matters to a rotation (00_scope.md R13). -/
theorem rotl_mod (x : Word) (n : Nat) : rotl x (n % 32) = rotl x n := BitVec.rotateLeft_mod_eq_rotateLeft

/-- Bit k of a rotation by any count (41_substitution_diffusion.md R142). -/
theorem getLsbD_rotl_mod (x : Word) (n : Nat) {k : Nat} (hk : k < 32) :
    (rotl x n).getLsbD k = x.getLsbD ((k + (32 - n % 32)) % 32) := by
  rw [← rotl_mod, getLsbD_rotl x _ k (Nat.mod_lt _ (by decide)) hk]

/-- Two rotations are one, by the sum of their counts. -/
theorem rotl_rotl (x : Word) (m n : Nat) : rotl (rotl x m) n = rotl x (m + n) := by
  apply BitVec.eq_of_getLsbD_eq
  intro k hk
  rw [getLsbD_rotl_mod _ n hk, getLsbD_rotl_mod x m (Nat.mod_lt _ (by decide)), getLsbD_rotl_mod x (m + n) hk]
  congr 1
  omega

/-- A rotation by any count distributes over exclusive or. -/
theorem rotl_xor_distrib (x y : Word) (n : Nat) : rotl (x ^^^ y) n = rotl x n ^^^ rotl y n := by
  rw [← rotl_mod, rotl_xor x y (Nat.mod_lt _ (by decide)), rotl_mod, rotl_mod]

/-- A rotation by a multiple of 32 changes nothing. -/
theorem rotl_mul_32 (x : Word) (n : Nat) : rotl x (32 * n) = x := by
  apply BitVec.eq_of_getLsbD_eq
  intro k hk
  rw [getLsbD_rotl_mod x _ hk]
  congr 1
  omega

/-- The word 0 is fixed by rotation. -/
theorem rotl_zero_word (n : Nat) : rotl 0 n = 0 := by
  apply BitVec.eq_of_getLsbD_eq
  intro k hk
  rw [getLsbD_rotl_mod 0 n hk, BitVec.ofNat_eq_ofNat, BitVec.getLsbD_zero, BitVec.getLsbD_zero]

/-- The word of all ones is fixed by rotation. -/
theorem rotl_allOnes (n : Nat) : rotl (BitVec.allOnes 32) n = BitVec.allOnes 32 := by
  apply BitVec.eq_of_getLsbD_eq
  intro k hk
  have hpos : (k + (32 - n % 32)) % 32 < 32 := Nat.mod_lt _ (by decide)
  simp only [getLsbD_rotl_mod _ n hk, BitVec.getLsbD_allOnes, hk, hpos]

/-- The XOR of the rotations of a word by each count of a list: the common form of L and L′. -/
def rotSum : List Nat → Word → Word
  | [], _ => 0
  | n :: ns, b => rotl b n ^^^ rotSum ns b

/-- L is a sum of five rotations (41_substitution_diffusion.md R143). -/
theorem diffL_eq_rotSum : diffL = rotSum [0, 2, 10, 18, 24] := by
  funext b
  simp [diffL, rotSum, show rotl b 0 = b from rotl_mul_32 b 0, BitVec.xor_assoc]

/-- L′ is a sum of three rotations (41_substitution_diffusion.md R144). -/
theorem diffL'_eq_rotSum : diffL' = rotSum [0, 13, 23] := by
  funext b
  simp [diffL', rotSum, show rotl b 0 = b from rotl_mul_32 b 0, BitVec.xor_assoc]

/-- A sum of rotations is linear over XOR. -/
theorem rotSum_xor (ns : List Nat) (a b : Word) : rotSum ns (a ^^^ b) = rotSum ns a ^^^ rotSum ns b := by
  induction ns with
  | nil => exact BitVec.xor_self.symm
  | cons n ns ih =>
    simp only [rotSum, rotl_xor_distrib, ih]
    ac_rfl

/-- A sum of rotations commutes with every rotation. -/
theorem rotSum_rotl (ns : List Nat) (b : Word) (n : Nat) : rotSum ns (rotl b n) = rotl (rotSum ns b) n := by
  induction ns with
  | nil => exact (rotl_zero_word n).symm
  | cons m ns ih => simp only [rotSum, rotl_xor_distrib, ih, rotl_rotl, Nat.add_comm]

/-- On a word that every rotation of the sum fixes, an odd number of rotations is the identity. -/
theorem rotSum_of_fixed {ns : List Nat} {b : Word} (h : ∀ n ∈ ns, rotl b n = b) :
    rotSum ns b = if ns.length % 2 = 1 then b else 0 := by
  induction ns with
  | nil => rfl
  | cons n ns ih =>
    obtain ⟨hn, hns⟩ := List.forall_mem_cons.1 h
    rw [rotSum, hn, ih hns, List.length_cons]
    rcases Nat.mod_two_eq_zero_or_one ns.length with hlen | hlen <;> simp [Nat.add_mod, hlen]

/-- A sum of rotations applied twice doubles each count: the mixed terms occur in pairs, and cancel. -/
theorem rotSum_rotSum (ns : List Nat) (b : Word) : rotSum ns (rotSum ns b) = rotSum (ns.map (2 * ·)) b := by
  induction ns with
  | nil => rfl
  | cons n ns ih =>
    calc rotSum (n :: ns) (rotSum (n :: ns) b)
        = rotl (rotl b n) n ^^^ (rotl (rotSum ns b) n ^^^ (rotl (rotSum ns b) n ^^^ rotSum ns (rotSum ns b))) := by
          simp only [rotSum, rotl_xor_distrib, rotSum_xor, rotSum_rotl, BitVec.xor_assoc]
      _ = rotl b (2 * n) ^^^ rotSum (ns.map (2 * ·)) b := by
          rw [xor_cancel_left, rotl_rotl, ih, Nat.two_mul]

/-- Applied 2^k times, a sum of rotations has each count multiplied by 2^k. -/
theorem iterate_rotSum (ns : List Nat) (k : Nat) : (rotSum ns)^[2 ^ k] = rotSum (ns.map (2 ^ k * ·)) := by
  induction k with
  | zero => simp
  | succ k ih =>
    funext b
    rw [Nat.pow_succ, Function.iterate_mul, ih]
    simp [rotSum_rotSum, Function.comp_def, Nat.mul_assoc, Nat.mul_left_comm]

/-- Applied 32 times, an odd number of rotations is the identity, so each has an inverse. -/
theorem rotSum_bijective {ns : List Nat} (hodd : ns.length % 2 = 1) : Function.Bijective (rotSum ns) := by
  have hinv : Function.LeftInverse (rotSum ns)^[31] (rotSum ns) := fun b =>
    calc (rotSum ns)^[31] (rotSum ns b)
        = rotSum (ns.map (32 * ·)) b := congrFun (iterate_rotSum ns 5) b
      _ = b := by rw [rotSum_of_fixed (by simp [rotl_mul_32]), List.length_map, if_pos hodd]
  exact Finite.injective_iff_bijective.1 hinv.injective

/-- Settles O37: L and L′ are sums of an odd number of rotations. -/
theorem diffusionIsLinearRotationInvariantBijection : Obligations.DiffusionIsLinearRotationInvariantBijection := by
  intro f hf
  obtain ⟨ns, hodd, rfl⟩ : ∃ ns : List Nat, ns.length % 2 = 1 ∧ f = rotSum ns := by
    simp only [List.mem_cons, List.not_mem_nil, or_false] at hf
    rcases hf with rfl | rfl
    · exact ⟨_, rfl, diffL_eq_rotSum⟩
    · exact ⟨_, rfl, diffL'_eq_rotSum⟩
  have fixed {b : Word} (h : ∀ n, rotl b n = b) : rotSum ns b = b :=
    (rotSum_of_fixed fun n _ => h n).trans (if_pos hodd)
  exact ⟨rotSum_xor ns, fixed rotl_zero_word, fixed rotl_allOnes, fun b n _ => rotSum_rotl ns b n,
    rotSum_bijective hodd⟩

end Sys2Proof.Machine
end

section
/-! The function commands of one word: what writing DOUT0 and completing leaves, and the results of TAU, LIN and LINK
(10_state.md R29; 41_substitution_diffusion.md R150 to R152; 44_cipher_engine.md R202). -/

namespace Sys2Proof.Machine

/-- Writing DOUT0 and completing changes STATUS and DOUT0 alone (10_state.md R29; 44_cipher_engine.md R202). -/
theorem frame_finish_setDout0 (s : State) (v : Word) : Frame [.status, .dout 0] s (finish (setDout0 s v)) := by
  refine ⟨fun r hr => ?_, rfl, rfl, rfl, rfl⟩
  cases r with
  | status => simp at hr
  | dout i =>
    have hi : i ≠ 0 := by simpa using hr
    have hne : 0 ≠ i.val := fun h => hi (Fin.ext h.symm)
    simp [regValue, Vector.getElem_set_ne, hne]
  | id | config | cmd | key | din | arg | rk | fk | ck | sboxw | ct => rfl

/-- A command that does no more than write DOUT0 completes with that word, and its frame is STATUS and DOUT0. -/
theorem exec_writes_dout0 {i : Instr} {s : State} {v : Word} (h : exec i s = .next (finish (setDout0 s v))) :
    ∃ t, exec i s = .next t ∧ Completes 0 s t ∧ t.ksv = s.ksv ∧ Frame [.status, .dout 0] s t ∧
      regValue t (.dout 0) = v :=
  ⟨_, h, ⟨rfl, rfl, rfl⟩, rfl, frame_finish_setDout0 s v, by simp [regValue]⟩

/-- Bit k of L(b): the counts of R143 as bit positions. -/
theorem getLsbD_diffL (b : Word) {k : Nat} (hk : k < 32) :
    (diffL b).getLsbD k =
      (b.getLsbD k ^^ b.getLsbD ((k + 30) % 32) ^^ b.getLsbD ((k + 22) % 32) ^^ b.getLsbD ((k + 14) % 32) ^^
        b.getLsbD ((k + 8) % 32)) := by
  simp only [diffL, BitVec.getLsbD_xor, getLsbD_rotl_mod _ _ hk]

/-- Bit k of L′(b): the counts of R144 as bit positions. -/
theorem getLsbD_diffL' (b : Word) {k : Nat} (hk : k < 32) :
    (diffL' b).getLsbD k = (b.getLsbD k ^^ b.getLsbD ((k + 19) % 32) ^^ b.getLsbD ((k + 9) % 32)) := by
  simp only [diffL', BitVec.getLsbD_xor, getLsbD_rotl_mod _ _ hk]

/-- Settles O44: TAU writes τ of the operand, byte by byte. -/
theorem tauWritesSubstitutedBytes : Obligations.TauWritesSubstitutedBytes := by
  intro s
  obtain ⟨t, ht, hcompletes, hksv, hframe, hdout⟩ := exec_writes_dout0 (i := .tau) (s := s) rfl
  exact ⟨t, ht, hcompletes, hksv, hframe, fun j hj => hdout ▸ byteJ_tau _ hj⟩

/-- Settles O45: LIN writes L of the operand, bit by bit. -/
theorem linWritesDiffusedBits : Obligations.LinWritesDiffusedBits := by
  intro s
  obtain ⟨t, ht, hcompletes, hksv, hframe, hdout⟩ := exec_writes_dout0 (i := .lin) (s := s) rfl
  exact ⟨t, ht, hcompletes, hksv, hframe, fun k hk => hdout ▸ getLsbD_diffL _ hk⟩

/-- Settles O46: LINK writes L′ of the operand, bit by bit. -/
theorem linkWritesKeyDiffusedBits : Obligations.LinkWritesKeyDiffusedBits := by
  intro s
  obtain ⟨t, ht, hcompletes, hksv, hframe, hdout⟩ := exec_writes_dout0 (i := .link) (s := s) rfl
  exact ⟨t, ht, hcompletes, hksv, hframe, fun k hk => hdout ▸ getLsbD_diffL' _ hk⟩

end Sys2Proof.Machine
end

section
/-! The key schedule (42_key_schedule.md R160 to R167): the expansion as the recurrence over K[0..35], and the results and
frames of KEYEXP and TKEY. -/

namespace Sys2Proof.Machine

/-- The window after `n` moves from `k`, where move `i` brings in the word that `f` makes of the window and of `c i`. -/
def Slide.after (f : Slide → Word → Word) (c : Nat → Word) (k : Slide) : Nat → Slide
  | 0 => k
  | n + 1 => (k.after f c n).push (f (k.after f c n) (c n))

/-- The first move can be taken apart from the moves that follow it. -/
theorem Slide.after_succ (f : Slide → Word → Word) (c : Nat → Word) (k : Slide) (n : Nat) :
    k.after f c (n + 1) = (k.push (f k (c 0))).after f (fun i => c (i + 1)) n := by
  induction n with
  | zero => rfl
  | succ n ih => rw [Slide.after, ih, Slide.after]

/-- Each round subkey is the next key word of the window it is generated from (42_key_schedule.md R163, R164). -/
theorem getElem_keyWords (cs : List Word) (k : Slide) (i : Nat) (hi : i < cs.length) :
    (keyWords cs k)[i]'(by rwa [length_keyWords]) = nextKeyWord (k.after nextKeyWord (cs.getD · 0) i) cs[i] := by
  induction cs generalizing k i with
  | nil => simp at hi
  | cons c cs ih =>
    cases i with
    | zero => rfl
    | succ i =>
      rw [Slide.after_succ]
      exact ih (k.push (nextKeyWord k c)) i (by simpa using hi)

/-- The window of the key expansion that begins with K[n] (42_key_schedule.md R162, R163; log 15). -/
def keyWindow (mk : Vector Word 4) (n : Nat) : Slide := (whiten mk).after nextKeyWord (ck.toList.getD · 0) n

/-- Each move of the window brings in the next key word (42_key_schedule.md R163). -/
theorem keyWindow_succ (mk : Vector Word 4) (i : Fin 32) :
    keyWindow mk (i.val + 1) = (keyWindow mk i).push (nextKeyWord (keyWindow mk i) ck[i]) := by
  have hck : ck.toList.getD i.val 0 = ck[i] := by simp
  rw [← hck]
  rfl

/-- RK[i] is the next key word of window `i` (42_key_schedule.md R163). -/
theorem getElem_expand (mk : Vector Word 4) (i : Fin 32) : (expand mk)[i] = nextKeyWord (keyWindow mk i) ck[i] :=
  getElem_keyWords ck.toList (whiten mk) i.val i.isLt

/-- The word that a move brings in is the first of the window three moves later. -/
theorem keyWindow_add_four_a (mk : Vector Word 4) (i : Fin 32) :
    (keyWindow mk (i.val + 4)).a = nextKeyWord (keyWindow mk i) ck[i] := by
  have hmoved : (keyWindow mk (i.val + 4)).a = (keyWindow mk (i.val + 1)).d := rfl
  rw [hmoved, keyWindow_succ, Slide.push]

/-- Settles O40: K[n] is the first word of window `n`, which holds the three words after it too. -/
theorem expandFollowsKeyRecurrence : Obligations.ExpandFollowsKeyRecurrence := by
  intro mk
  refine ⟨fun n => (keyWindow mk n).a, fun i => ?_, keyWindow_add_four_a mk, fun i => ?_⟩
  · fin_cases i <;> rfl
  · exact (getElem_expand mk i).trans (keyWindow_add_four_a mk i).symm

/-- Settles O48: TKEY writes L′ of τ of the operand. -/
theorem tkeyWritesKeyComposite : Obligations.TkeyWritesKeyComposite := by
  intro s
  obtain ⟨t, ht, hcompletes, hksv, hframe, hdout⟩ := exec_writes_dout0 (i := .tkey) (s := s) rfl
  exact ⟨t, ht, hcompletes, hksv, hframe, tau s.p.din[0], fun _ hj => byteJ_tau _ hj, hdout⟩

/-- Writing the schedule and completing changes STATUS and RK0..RK31 alone (10_state.md R30; 44_cipher_engine.md R202). -/
theorem frame_finish_setSchedule (s : State) (rk : Vector Word 32) :
    Frame (.status :: (List.finRange 32).map .rk) s (finish (setSchedule s rk)) := by
  refine ⟨fun r hr => ?_, rfl, rfl, rfl, rfl⟩
  cases r with
  | status | rk => simp at hr
  | id | config | cmd | key | din | arg | dout | fk | ck | sboxw | ct => rfl

/-- KEYEXP of length 16 expands the latched key into RKF (42_key_schedule.md R166). -/
theorem exec_keyexp_16 (s : State) : exec (.keyexp 16) s = .next (finish (setSchedule s (expand s.p.key))) := rfl

/-- Settles O50: RKF is the expansion of the latched key, which follows the recurrence. -/
theorem keyexpWritesSchedule : Obligations.KeyexpWritesSchedule := by
  intro s
  obtain ⟨K, hstart, hnext, hexpand⟩ := expandFollowsKeyRecurrence s.p.key
  exact ⟨_, K, exec_keyexp_16 s, ⟨rfl, rfl, rfl⟩, rfl, frame_finish_setSchedule s _, hstart, hnext, hexpand⟩

/-- An error changes STATUS alone (60_exceptions.md R232). -/
theorem frame_raiseError (s : State) (e : ErrorCode) : Frame [.status] s (raiseError s e) := by
  refine ⟨fun r hr => ?_, rfl, rfl, rfl, rfl⟩
  cases r with
  | status => simp at hr
  | id | config | cmd | key | din | arg | dout | rk | fk | ck | sboxw | ct => rfl

/-- A command that raises an error completes with its code, keeps KSV, and its frame is STATUS. -/
theorem exec_raises {i : Instr} {s : State} {e : ErrorCode} (h : exec i s = .next (raiseError s e)) :
    ∃ t, exec i s = .next t ∧ Completes e.code s t ∧ t.ksv = s.ksv ∧ Frame [.status] s t :=
  ⟨_, h, ⟨rfl, rfl, rfl⟩, rfl, frame_raiseError s e⟩

/-- Settles O51: a wrong length raises InvalidKeyLength, which is code 1. -/
theorem keyexpWrongLengthKeepsSchedule : Obligations.KeyexpWrongLengthKeepsSchedule :=
  fun s _ hlen => exec_raises (exec_keyexp_of_ne hlen s)

end Sys2Proof.Machine
end

section
/-! The round composite T (43_round_function.md R180 to R190): the two strategies are one function, so no result shows
which was in force; and the results of TRND and FRND. -/

namespace Sys2Proof.Machine

/-- Each byte of an exclusive or is the exclusive or of the bytes (00_scope.md R11). -/
theorem byteJ_xor (x y : Word) (j : Nat) : byteJ (x ^^^ y) j = byteJ x j ^^^ byteJ y j := BitVec.extractLsb'_xor

/-- τ(x) is the sum over XOR of its four substituted bytes, each in its own place: they do not overlap
(43_round_function.md R185). -/
theorem tau_eq_xor_lanes (x : Word) :
    tau x = (sbox (byteJ x 0)).setWidth 32 <<< (24 - 8 * 0) ^^^ (sbox (byteJ x 1)).setWidth 32 <<< (24 - 8 * 1) ^^^
      (sbox (byteJ x 2)).setWidth 32 <<< (24 - 8 * 2) ^^^ (sbox (byteJ x 3)).setWidth 32 <<< (24 - 8 * 3) := by
  apply eq_of_byteJ
  intro n hn
  simp (disch := omega) only [byteJ_tau, byteJ_xor, byteJ_setWidth_shiftLeft]
  interval_cases n <;> simp

/-- L is linear over XOR (41_substitution_diffusion.md R145). -/
theorem diffL_xor (a b : Word) : diffL (a ^^^ b) = diffL a ^^^ diffL b := by
  rw [diffL_eq_rotSum, rotSum_xor]

/-- The strategies agree: L of the sum of the lanes is the sum of L of each lane, which the tables hold
(43_round_function.md R185; 40_constants.md R126). -/
theorem tTable_eq_tDirect (x : Word) : tTable x = tDirect x := by
  simp only [tTable, ct, tDirect, tau_eq_xor_lanes, diffL_xor]

/-- T by any strategy is L of τ (43_round_function.md R180, R186). -/
theorem roundT_eq_tDirect (st : Strategy) (x : Word) : roundT st x = tDirect x := by
  cases st with
  | direct => rfl
  | table => exact tTable_eq_tDirect x

/-- F by any strategy (43_round_function.md R181). -/
theorem roundF_eq_tDirect (st : Strategy) (x0 x1 x2 x3 rk : Word) :
    roundF st x0 x1 x2 x3 rk = x0 ^^^ tDirect (x1 ^^^ x2 ^^^ x3 ^^^ rk) := by
  rw [roundF, roundT_eq_tDirect]

/-- Settles O38: L is linear and τ is the sum of its lanes, so the table lookups add up to L of τ. -/
theorem tableStrategyEqualsDirect : Obligations.TableStrategyEqualsDirect :=
  ⟨tTable_eq_tDirect, fun x0 x1 x2 x3 rk => by rw [roundF_eq_tDirect, roundF_eq_tDirect]⟩

/-- A round does not depend on the strategy. -/
theorem roundStep_strategy (st st' : Strategy) : roundStep st = roundStep st' := by
  funext x rk
  rw [roundStep, roundStep, roundF_eq_tDirect, roundF_eq_tDirect]

/-- The 32 rounds do not depend on the strategy (44_cipher_engine.md R205; 43_round_function.md R186). -/
theorem process_strategy (st st' : Strategy) (x : Vector Word 4) (rkf : Vector Word 32) (dir : Direction) :
    process x rkf dir st = process x rkf dir st' := by
  rw [process, process, rounds, rounds, roundStep_strategy st st']

/-- TRND writes T of the operand, by whichever strategy (43_round_function.md R189). -/
theorem exec_trnd (s : State) : exec .trnd s = .next (finish (setDout0 s (tDirect s.p.din[0]))) := by
  rw [← roundT_eq_tDirect s.p.strat]
  rfl

/-- FRND writes F of the operands, by whichever strategy (43_round_function.md R190). -/
theorem exec_frnd (s : State) :
    exec .frnd s =
      .next (finish (setDout0 s (s.p.din[0] ^^^ tDirect (s.p.din[1] ^^^ s.p.din[2] ^^^ s.p.din[3] ^^^ s.p.arg)))) := by
  rw [← roundF_eq_tDirect s.p.strat]
  rfl

/-- Settles O47: TRND writes L of τ of the operand. -/
theorem trndWritesRoundComposite : Obligations.TrndWritesRoundComposite := by
  intro s
  obtain ⟨t, ht, hcompletes, hksv, hframe, hdout⟩ := exec_writes_dout0 (exec_trnd s)
  exact ⟨t, ht, hcompletes, hksv, hframe, tau s.p.din[0], fun _ hj => byteJ_tau _ hj, hdout⟩

/-- Settles O49: FRND writes x0 XOR L of τ of x1 ⊕ x2 ⊕ x3 ⊕ rk. -/
theorem frndWritesRoundFunction : Obligations.FrndWritesRoundFunction := by
  intro s
  obtain ⟨t, ht, hcompletes, hksv, hframe, hdout⟩ := exec_writes_dout0 (exec_frnd s)
  exact ⟨t, ht, hcompletes, hksv, hframe, tau (s.p.din[1] ^^^ s.p.din[2] ^^^ s.p.din[3] ^^^ s.p.arg),
    fun _ hj => byteJ_tau _ hj, hdout⟩

/-- The state with another strategy in the latch. -/
def setLatchStrat (s : State) (st : Strategy) : State := { s with p := { s.p with strat := st } }

/-- ENC and DEC with another strategy in the latch end in the same state but for it. -/
theorem cryptBlock_setLatchStrat (dir : Direction) (len : Nat) (s : State) (st : Strategy) :
    ∃ t, cryptBlock dir len s = .next t ∧ cryptBlock dir len (setLatchStrat s st) = .next (setLatchStrat t st) := by
  have hksv : (setLatchStrat s st).ksv = s.ksv := rfl
  have hprocess : process (operandBlock (setLatchStrat s st)) (setLatchStrat s st).rkf dir
      (operandStrat (setLatchStrat s st)) = process (operandBlock s) s.rkf dir (operandStrat s) :=
    process_strategy st s.p.strat s.p.din s.rkf dir
  simp only [cryptBlock, hksv, hprocess]
  split
  · split <;> exact ⟨_, rfl, rfl⟩
  · exact ⟨_, rfl, rfl⟩

/-- Settles O19: ENC, DEC, TRND and FRND evaluate T, which is one function; the other commands do not read P.strat. -/
theorem strategyIsInvisibleInResults : Obligations.StrategyIsInvisibleInResults := by
  intro s i st
  cases i with
  | nop | tau | lin | link | tkey => exact ⟨_, rfl, rfl⟩
  | keyexp len =>
    simp only [exec, execKeyexp]
    split <;> exact ⟨_, rfl, rfl⟩
  | enc len => exact cryptBlock_setLatchStrat .encrypt len s st
  | dec len => exact cryptBlock_setLatchStrat .decrypt len s st
  | trnd => exact ⟨_, exec_trnd s, exec_trnd (setLatchStrat s st)⟩
  | frnd => exact ⟨_, exec_frnd s, exec_frnd (setLatchStrat s st)⟩

end Sys2Proof.Machine
end

section
/-! ENC and DEC (44_cipher_engine.md R203 to R210): the 32 rounds as the recurrence over X[0..35], their inverse, and the
results, frames and errors of the two commands. -/

namespace Sys2Proof.Machine

/-- The next block word, `X[i+4] = X[i] ⊕ L(τ(X[i+1] ⊕ X[i+2] ⊕ X[i+3] ⊕ R[i]))` (43_round_function.md R180, R181). -/
def nextBlockWord (x : Slide) (rk : Word) : Word := x.a ^^^ diffL (tau (x.b ^^^ x.c ^^^ x.d ^^^ rk))

/-- A round by any strategy moves the window on to the next block word (44_cipher_engine.md R205). -/
theorem roundStep_eq_push (st : Strategy) (x : Slide) (rk : Word) : roundStep st x rk = x.push (nextBlockWord x rk) := by
  rw [roundStep, roundF_eq_tDirect]
  rfl

/-- The first round can be taken apart from the rounds that follow it. -/
theorem rounds_cons (st : Strategy) (k : Word) (ks : List Word) (x : Slide) :
    rounds st (k :: ks) x = rounds st ks (roundStep st x k) := rfl

/-- The last round can be taken apart from the rounds before it. -/
theorem rounds_concat (st : Strategy) (ks : List Word) (k : Word) (x : Slide) :
    rounds st (ks ++ [k]) x = roundStep st (rounds st ks x) k :=
  List.foldl_append

/-- The rounds under `ks` are as many moves of the window (44_cipher_engine.md R205; log 15). -/
theorem rounds_eq_after (st : Strategy) (ks : List Word) (x : Slide) :
    rounds st ks x = x.after nextBlockWord (ks.getD · 0) ks.length := by
  induction ks generalizing x with
  | nil => rfl
  | cons k ks ih =>
    rw [rounds_cons, roundStep_eq_push, ih, List.length_cons, Slide.after_succ]
    rfl

/-- There is one subkey for each of the 32 rounds (44_cipher_engine.md R204). -/
theorem length_subkeys (dir : Direction) (rkf : Vector Word 32) : (subkeys dir rkf).length = 32 := by
  cases dir <;> simp [subkeys]

/-- To encrypt, R[i] = RKF[i] (44_cipher_engine.md R204). -/
theorem getD_subkeys_encrypt (rkf : Vector Word 32) (i : Fin 32) : (subkeys .encrypt rkf).getD i.val 0 = rkf[i] := by
  simp [subkeys]

/-- To decrypt, R[i] = RKF[31 − i] (44_cipher_engine.md R204). -/
theorem getD_subkeys_decrypt (rkf : Vector Word 32) (i : Fin 32) : (subkeys .decrypt rkf).getD i.val 0 = rkf[i.rev] := by
  simp [subkeys, Fin.rev]

/-- `process` is the spec's recurrence over X[0..35], by any strategy: X[n] is the first word of the window after `n`
rounds, which holds the three words after it too (44_cipher_engine.md R203 to R205). -/
theorem process_follows_rounds (x : Vector Word 4) (rkf : Vector Word 32) (dir : Direction) (st : Strategy) :
    ∃ X : Nat → Word,
      (∀ i : Fin 4, X i.val = x[i]) ∧
      (∀ i : Fin 32, X (i.val + 4) = X i.val ^^^
        diffL (tau (X (i.val + 1) ^^^ X (i.val + 2) ^^^ X (i.val + 3) ^^^ (subkeys dir rkf).getD i.val 0))) ∧
      process x rkf dir st = #v[X 35, X 34, X 33, X 32] := by
  refine ⟨fun n => ((loadBlock x).after nextBlockWord ((subkeys dir rkf).getD · 0) n).a, fun i => ?_, fun _ => rfl, ?_⟩
  · fin_cases i <;> rfl
  · rw [process, rounds_eq_after, length_subkeys]
    rfl

/-- The window back to front, as the output block stands to X[32..35] (44_cipher_engine.md R205). -/
def Slide.flip (x : Slide) : Slide := ⟨x.d, x.c, x.b, x.a⟩

/-- An output block loaded again is the window back to front (44_cipher_engine.md R203, R205). -/
theorem loadBlock_storeBlock (x : Slide) : loadBlock (storeBlock x) = x.flip := rfl

/-- A loaded block stored from back to front is the block. -/
theorem storeBlock_flip_loadBlock (x : Vector Word 4) : storeBlock (loadBlock x).flip = x := by
  ext i hi
  interval_cases i <;> rfl

/-- A round undoes itself on the window back to front: T sees the same three words and subkey, and its value cancels
(44_cipher_engine.md R210). -/
theorem roundStep_flip_roundStep (st : Strategy) (x : Slide) (rk : Word) :
    roundStep st (roundStep st x rk).flip rk = x.flip := by
  have hsum : x.d ^^^ x.c ^^^ x.b ^^^ rk = x.b ^^^ x.c ^^^ x.d ^^^ rk := by ac_rfl
  simp only [roundStep_eq_push, Slide.push, Slide.flip, nextBlockWord, hsum]
  simp [BitVec.xor_assoc]

/-- Rounds under the same subkeys back to front undo the rounds (44_cipher_engine.md R210). -/
theorem rounds_reverse_flip_rounds (st : Strategy) (ks : List Word) (x : Slide) :
    rounds st ks.reverse (rounds st ks x).flip = x.flip := by
  induction ks generalizing x with
  | nil => rfl
  | cons k ks ih =>
    rw [List.reverse_cons, rounds_concat, rounds_cons, ih, roundStep_flip_roundStep]

/-- The other direction. -/
def Direction.inverse : Direction → Direction
  | .encrypt => .decrypt
  | .decrypt => .encrypt

/-- The other direction takes the subkeys back to front (44_cipher_engine.md R204). -/
theorem subkeys_inverse (dir : Direction) (rkf : Vector Word 32) :
    subkeys dir.inverse rkf = (subkeys dir rkf).reverse := by
  cases dir with
  | encrypt => rfl
  | decrypt => exact (List.reverse_reverse _).symm

/-- Each direction inverts the other under the same schedule, with any strategy for either (44_cipher_engine.md R210). -/
theorem process_inverse_process (x : Vector Word 4) (rkf : Vector Word 32) (dir : Direction) (st st' : Strategy) :
    process (process x rkf dir st) rkf dir.inverse st' = x := by
  rw [process_strategy st' st, process, process, subkeys_inverse, loadBlock_storeBlock, rounds_reverse_flip_rounds,
    storeBlock_flip_loadBlock]

/-- ENC and DEC of length 16 over a schedule write `process` of the latched block (44_cipher_engine.md R206, R207). -/
theorem cryptBlock_16 (dir : Direction) {s : State} (hk : s.ksv = true) :
    cryptBlock dir 16 s = .next (finish (setDout s (process s.p.din s.rkf dir s.p.strat))) := by
  simp [cryptBlock, lengthOk, hk, operandBlock, operandStrat]

/-- ENC and DEC of any length but 16 raise InvalidBlockLength, whatever KSV is (60_exceptions.md R231). -/
theorem cryptBlock_of_ne (dir : Direction) {len : Nat} (h : len ≠ 16) (s : State) :
    cryptBlock dir len s = .next (raiseError s .invalidBlockLength) := by
  simp [cryptBlock, lengthOk, h]

/-- ENC and DEC of length 16 raise NoKeySchedule while KSV = 0 (60_exceptions.md R231). -/
theorem cryptBlock_16_of_no_schedule (dir : Direction) {s : State} (hk : s.ksv = false) :
    cryptBlock dir 16 s = .next (raiseError s .noKeySchedule) := by
  simp [cryptBlock, lengthOk, hk]

/-- Writing DOUT and completing changes STATUS and DOUT0..DOUT3 alone (10_state.md R29; 44_cipher_engine.md R202). -/
theorem frame_finish_setDout (s : State) (x : Vector Word 4) :
    Frame [.status, .dout 0, .dout 1, .dout 2, .dout 3] s (finish (setDout s x)) := by
  refine ⟨fun r hr => ?_, rfl, rfl, rfl, rfl⟩
  cases r with
  | status => simp at hr
  | dout i => fin_cases i <;> simp at hr
  | id | config | cmd | key | din | arg | rk | fk | ck | sboxw | ct => rfl

/-- A block command over a schedule completes with the words of the recurrence, and its frame is STATUS and DOUT
(44_cipher_engine.md R203 to R207). -/
theorem cryptBlock_writes_rounds (dir : Direction) {s : State} (hk : s.ksv = true) :
    ∃ (t : State) (X : Nat → Word), cryptBlock dir 16 s = .next t ∧ Completes 0 s t ∧ t.ksv = s.ksv ∧
      Frame [.status, .dout 0, .dout 1, .dout 2, .dout 3] s t ∧
      (∀ i : Fin 4, X i.val = s.p.din[i]) ∧
      (∀ i : Fin 32, X (i.val + 4) = X i.val ^^^
        diffL (tau (X (i.val + 1) ^^^ X (i.val + 2) ^^^ X (i.val + 3) ^^^ (subkeys dir s.rkf).getD i.val 0))) ∧
      t.dout = #v[X 35, X 34, X 33, X 32] := by
  obtain ⟨X, hstart, hnext, hout⟩ := process_follows_rounds s.p.din s.rkf dir s.p.strat
  exact ⟨_, X, cryptBlock_16 dir hk, ⟨rfl, rfl, rfl⟩, rfl, frame_finish_setDout s _, hstart, hnext, hout⟩

/-- Settles O52: ENC runs the recurrence with the subkeys in generation order. -/
theorem encRunsRoundsInGenerationOrder : Obligations.EncRunsRoundsInGenerationOrder := by
  intro s hk
  have h := cryptBlock_writes_rounds .encrypt hk
  simp only [getD_subkeys_encrypt] at h
  exact h

/-- Settles O53: DEC runs the same recurrence with the subkeys back to front. -/
theorem decRunsRoundsBackToFront : Obligations.DecRunsRoundsBackToFront := by
  intro s hk
  have h := cryptBlock_writes_rounds .decrypt hk
  simp only [getD_subkeys_decrypt] at h
  exact h

/-- A block command on the result of the inverse one, under the same schedule, gives the block back
(44_cipher_engine.md R210). -/
theorem cryptBlock_inverse (dir : Direction) {s t u : State} (hs : s.ksv = true) (hu : u.ksv = true)
    (hrkf : u.rkf = s.rkf) (ht : cryptBlock dir 16 s = .next t) (hdin : u.p.din = t.dout) :
    ∃ v, cryptBlock dir.inverse 16 u = .next v ∧ v.dout = s.p.din := by
  obtain rfl : finish (setDout s (process s.p.din s.rkf dir s.p.strat)) = t := by simpa [cryptBlock_16 dir hs] using ht
  refine ⟨_, cryptBlock_16 dir.inverse hu, ?_⟩
  simp [hdin, hrkf, process_inverse_process]

/-- Settles O42: the rounds back to front undo the rounds, in either order of the two commands. -/
theorem decryptionInvertsEncryption : Obligations.DecryptionInvertsEncryption :=
  fun _ _ hs hu hrkf => ⟨fun _ ht hdin => cryptBlock_inverse .encrypt hs hu hrkf ht hdin,
    fun _ ht hdin => cryptBlock_inverse .decrypt hs hu hrkf ht hdin⟩

/-- ENC and DEC are the block command in one of its directions (44_cipher_engine.md R206, R207). -/
theorem exec_eq_cryptBlock {i : Instr} {len : Nat} (hi : i ∈ [Instr.enc len, .dec len]) (s : State) :
    ∃ dir, exec i s = cryptBlock dir len s := by
  simp only [List.mem_cons, List.not_mem_nil, or_false] at hi
  rcases hi with rfl | rfl
  · exact ⟨.encrypt, rfl⟩
  · exact ⟨.decrypt, rfl⟩

/-- Settles O54: the length is checked before the schedule, and an error's frame is STATUS. -/
theorem blockCommandErrorsLeaveDout : Obligations.BlockCommandErrorsLeaveDout := by
  intro s len i hi
  obtain ⟨dir, hexec⟩ := exec_eq_cryptBlock hi s
  refine ⟨fun hlen => exec_raises (hexec.trans (cryptBlock_of_ne dir hlen s)), ?_⟩
  rintro rfl hk
  exact exec_raises (hexec.trans (cryptBlock_16_of_no_schedule dir hk))

end Sys2Proof.Machine
end

section
/-! The completion of any command: what it reads, NOP's frame, and the step that runs it (44_cipher_engine.md R202, R208,
R211). -/

namespace Sys2Proof.Machine

/-- Completing alone changes STATUS alone (44_cipher_engine.md R202). -/
theorem frame_finish (s : State) : Frame [.status] s (finish s) := by
  refine ⟨fun r hr => ?_, rfl, rfl, rfl, rfl⟩
  cases r with
  | status => simp at hr
  | id | config | cmd | key | din | arg | dout | rk | fk | ck | sboxw | ct => rfl

/-- Settles O43: NOP is the completion alone. -/
theorem nopOnlyCompletes : Obligations.NopOnlyCompletes :=
  fun s => ⟨finish s, rfl, ⟨rfl, rfl, rfl⟩, rfl, frame_finish s⟩

/-- What a completion reads, and the words of DOUT it may keep, are the same in both states (44_cipher_engine.md R211). -/
structure SameInputs (s u : State) : Prop where
  p : u.p = s.p
  rkf : u.rkf = s.rkf
  ksv : u.ksv = s.ksv
  dout : u.dout = s.dout

/-- Both outcomes go on, with the same results and the same code and BUSY (44_cipher_engine.md R211). -/
def CompleteAlike (o o' : Result) : Prop :=
  ∃ t v, o = .next t ∧ o' = .next v ∧
    v.dout = t.dout ∧ v.rkf = t.rkf ∧ v.ksv = t.ksv ∧ v.err = t.err ∧ v.busy = t.busy

section
variable {s u : State} (h : SameInputs s u)
include h

/-- An error leaves what the two states agree on. -/
theorem SameInputs.raiseError (e : ErrorCode) : CompleteAlike (.next (raiseError s e)) (.next (raiseError u e)) :=
  ⟨_, _, rfl, rfl, h.dout, h.rkf, h.ksv, rfl, rfl⟩

/-- A completion leaves what the two states agree on. -/
theorem SameInputs.finish : CompleteAlike (.next (finish s)) (.next (finish u)) :=
  ⟨_, _, rfl, rfl, h.dout, h.rkf, h.ksv, rfl, rfl⟩

/-- Two states that agree still do when the same word is written to DOUT0. -/
theorem SameInputs.setDout0 (v : Word) : SameInputs (setDout0 s v) (setDout0 u v) :=
  { h with dout := congrArg (·.set 0 v) h.dout }

/-- Two states that agree still do when the same block is written to DOUT. -/
theorem SameInputs.setDout (x : Vector Word 4) : SameInputs (setDout s x) (setDout u x) := { h with dout := rfl }

/-- Two states that agree still do when the same schedule is written. -/
theorem SameInputs.setSchedule (rk : Vector Word 32) : SameInputs (setSchedule s rk) (setSchedule u rk) :=
  { h with rkf := rfl, ksv := rfl }

/-- ENC and DEC read the latch, RKF and KSV alone (44_cipher_engine.md R206, R207). -/
theorem SameInputs.cryptBlock (dir : Direction) (len : Nat) :
    CompleteAlike (cryptBlock dir len s) (cryptBlock dir len u) := by
  simp only [Machine.cryptBlock, operandBlock, operandStrat, h.p, h.rkf, h.ksv]
  split
  · split
    · exact (h.setDout _).finish
    · exact h.raiseError _
  · exact h.raiseError _

/-- A command reads the latch, RKF and KSV alone (10_state.md R33; 44_cipher_engine.md R211). -/
theorem SameInputs.exec (i : Instr) : CompleteAlike (exec i s) (exec i u) := by
  cases i with
  | nop => exact h.finish
  | keyexp len =>
    simp only [Machine.exec, execKeyexp, operandKey, h.p]
    split
    · exact (h.setSchedule _).finish
    · exact h.raiseError _
  | enc len => exact h.cryptBlock .encrypt len
  | dec len => exact h.cryptBlock .decrypt len
  | tau | lin | link | trnd | tkey | frnd =>
    simp only [Machine.exec, execTau, execLin, execLink, execTrnd, execTkey, execFrnd, operandWord, operandBlock,
      operandRk, operandStrat, h.p]
    exact (h.setDout0 _).finish

end

/-- Settles O18: each command makes the same change of two states that agree on what it reads. -/
theorem resultsDependOnlyOnLatchAndSchedule : Obligations.ResultsDependOnlyOnLatchAndSchedule :=
  fun _ _ i hp hrkf hksv hdout => SameInputs.exec ⟨hp, hrkf, hksv, hdout⟩ i

/-- A pending command completes at the engine's turn (44_cipher_engine.md R202). -/
theorem engineTurn_of_legal {s : State} {i : Instr} (hb : s.busy = true) (hd : decode s.p.cmd = .ok i) :
    engineTurn s = exec i s := by
  simp only [engineTurn, complete, hb, hd, if_true]

/-- When no event is left the engine has the turn (70_reset_and_hazards.md R276; log 2). -/
theorem step_of_no_events {s : State} (hs : s.schedule = []) : step s = engineTurn s := by
  simp only [step, hs]

/-- The engine's turn completes the pending command in the state whose turn has been taken (44_cipher_engine.md R202). -/
theorem step_eq_exec {s : State} {i : Instr} {ts : List Turn} (hb : s.busy = true) (hd : decode s.p.cmd = .ok i)
    (hs : s.schedule = .engine :: ts) : step s = exec i (setTurns s ts) :=
  (step_eq_engineTurn hs).trans (engineTurn_of_legal (s := setTurns s ts) hb hd)

/-- Settles O4: either form of the engine's turn completes the pending command. -/
theorem stepRunsDecodedCommand : Obligations.StepRunsDecodedCommand :=
  fun _ _ hb hd => ⟨fun hs => (step_of_no_events hs).trans (engineTurn_of_legal hb hd), fun _ hs => step_eq_exec hb hd hs⟩

end Sys2Proof.Machine
end

section
/-! A host's write to CMD: the accepted issue and the overrun, and how OVR is cleared (44_cipher_engine.md R200, R201). -/

namespace Sys2Proof.Machine

/-- A write to CMD of an idle engine is accepted, whatever the word (44_cipher_engine.md R200). -/
theorem issue_of_idle {s : State} (hb : s.busy = false) (w : Word) : issue s w = acceptIssue s w := by
  simp [issue, hb]

/-- A write to CMD of a busy engine is dropped (44_cipher_engine.md R201). -/
theorem issue_of_busy {s : State} (hb : s.busy = true) (w : Word) : issue s w = overrun s := by
  simp [issue, hb]

/-- An accepted issue changes no register but CMD and STATUS (44_cipher_engine.md R200). -/
theorem regValue_acceptIssue {r : Reg} (hcmd : r ≠ .cmd) (hstatus : r ≠ .status) (s : State) (w : Word) :
    regValue (acceptIssue s w) r = regValue s r := by
  cases r with
  | cmd => exact absurd rfl hcmd
  | status => exact absurd rfl hstatus
  | id | config | key | din | arg | dout | rk | fk | ck | sboxw | ct => rfl

/-- The registers do not show the hosts. -/
theorem regValue_setHosts (s : State) (hs : List HostAgent) (r : Reg) : regValue (setHosts s hs) r = regValue s r := by
  cases r <;> rfl

/-- The registers do not show the events to come. -/
theorem regValue_setTurns (s : State) (ts : List Turn) (r : Reg) : regValue (setTurns s ts) r = regValue s r := by
  cases r <;> rfl

section
variable {s : State} {k : Nat} {h : HostAgent} {ts : List Turn} {w : Word} (hs : s.schedule = .host k :: ts)
  (hh : s.hosts[k]? = some h) (hp : h.prog[h.pc]? = some (.memWrite (busAddr Reg.cmd.offset) 4 w))
include hs hh hp

/-- A host's turn at a write to CMD is an issue attempt (44_cipher_engine.md R200, R201). -/
theorem step_cmdWrite : step s = .next (setHosts (issue (setTurns s ts) w) (s.hosts.set k h.advance)) := by
  rw [step_memWrite hs hh (offset_aligned .cmd).1 (offset_aligned .cmd).2 hp, writeOffset_offset]
  rfl

/-- A host's turn at a write to CMD of an idle engine (44_cipher_engine.md R200). -/
theorem step_cmdWrite_of_idle (hb : s.busy = false) :
    step s = .next (setHosts (acceptIssue (setTurns s ts) w) (s.hosts.set k h.advance)) := by
  rw [step_cmdWrite hs hh hp, issue_of_idle (by rwa [setTurns_busy])]

/-- A host's turn at a write to CMD of a busy engine (44_cipher_engine.md R201). -/
theorem step_cmdWrite_of_busy (hb : s.busy = true) :
    step s = .next (setHosts (overrun (setTurns s ts)) (s.hosts.set k h.advance)) := by
  rw [step_cmdWrite hs hh hp, issue_of_busy (by rwa [setTurns_busy])]

end

/-- Settles O10: the write is an accepted issue. -/
theorem acceptedIssueLatchesOperands : Obligations.AcceptedIssueLatchesOperands := by
  intro s k h ts w hb hs hh hp
  refine ⟨_, step_cmdWrite_of_idle hs hh hp hb, rfl, rfl, rfl, rfl, rfl, rfl, rfl, rfl, rfl, rfl,
    fun r hcmd hstatus => ?_, rfl, rfl, rfl⟩
  rw [regValue_setHosts, regValue_acceptIssue hcmd hstatus, regValue_setTurns]

/-- Settles O6: the accepted issue leaves the decodable word pending with the engine's turn next. -/
theorem issuedWordRunsAtNextEngineTurn : Obligations.IssuedWordRunsAtNextEngineTurn :=
  fun _ _ _ _ _ _ hb hs hh hp hd =>
    ⟨_, step_cmdWrite_of_idle hs hh hp hb, rfl, rfl, rfl, step_eq_exec rfl hd rfl⟩

/-- No engine's turn changes OVR (44_cipher_engine.md R202). -/
theorem engineTurn_ovr {s t : State} (h : engineTurn s = .next t) : t.ovr = s.ovr :=
  let ⟨_, _, _, _, hovr⟩ := engineTurn_frame h
  hovr

/-- The only write that clears OVR is one to STATUS with bit 2 set (10_state.md R25; 44_cipher_engine.md R201). -/
theorem writeOffset_clears_ovr {s : State} {off : Nat} {v : Word} (hs : s.ovr = true)
    (hw : (writeOffset s off v).ovr = false) : Reg.ofOffset off = some .status ∧ v.getLsbD 2 = true := by
  rcases writeOffset_cases s off v with
    h | ⟨-, h⟩ | ⟨-, -, h⟩ | ⟨-, -, h⟩ | ⟨hr, hv, -⟩ | ⟨i, -, h⟩ | ⟨i, -, h⟩ | ⟨-, h⟩
  case inr.inr.inr.inr.inl => exact ⟨hr, hv⟩
  all_goals simp [h, hs] at hw

/-- Settles O11: the write is an overrun, and no engine's turn, read or branch touches OVR. -/
theorem overrunIsDroppedAndSticky : Obligations.OverrunIsDroppedAndSticky := by
  refine ⟨fun s k h ts w hb hs hh hp => step_cmdWrite_of_busy hs hh hp hb, fun s t hovr hstep ht => ?_⟩
  rcases step_cases s t hstep with ⟨ts, hs, -⟩ | ⟨-, he⟩ | ⟨ts, -, he⟩ | ⟨k, ts, hs, hturn⟩
  · exact .inl ⟨ts, hs⟩
  · simp [engineTurn_ovr he, hovr] at ht
  · simp [engineTurn_ovr he, hovr] at ht
  · rcases hostTurn_writes_or_quiet hturn with ⟨h, addr, v, hs', hh, hp, hal, rfl⟩ | ⟨d, hs', rfl⟩
    · obtain ⟨hr, hv⟩ := writeOffset_clears_ovr (s := setTurns s ts) hovr ht
      exact .inr ⟨k, ts, h, addr, v, hs, hh, hp, (offset_of_ofOffset hal hr).symm, hv⟩
    · simp [hovr] at ht

end Sys2Proof.Machine
end

section
/-! The engine's turn and the exceptions: the idle engine, the code of every completion, and what an error leaves alone
(60_exceptions.md R230 to R232, R245). -/

namespace Sys2Proof.Machine

/-- The order of causes of 60_exceptions.md R231 over the fields of a word as numbers, with the codes of R230. -/
def priorityCode (rsv opc len : Nat) (ksv : Bool) : BitVec 4 :=
  if rsv ≠ 0 then 4
  else if opc = 1 then (if len = 16 then 0 else 1)
  else if opc = 2 ∨ opc = 3 then (if len ≠ 16 then 2 else if ksv = false then 3 else 0)
  else if opc = 0 ∨ (0x10 ≤ opc ∧ opc ≤ 0x15) then (if len = 0 then 0 else 4)
  else 4

/-- The code of a word is IllegalCommand where the decoder rejects it (30_encoding.md R95). -/
theorem priorityCode_of_illegal {w : Word} (h : ∃ e, decode w = .error e) (ksv : Bool) :
    priorityCode (fieldRsv w).toNat (fieldOpc w).toNat (fieldLen w).toNat ksv = 4 := by
  rw [decode_eq_error, decodeOp_eq_error] at h
  rcases h with hrsv | hop
  · exact if_pos fun h0 => hrsv (BitVec.eq_of_toNat_eq h0)
  · unfold priorityCode
    split_ifs <;> bv_omega

/-- The block commands check the length before the schedule (60_exceptions.md R231). -/
theorem cryptBlock_completes (dir : Direction) (len : Nat) (s : State) :
    ∃ t, cryptBlock dir len s = .next t ∧ t.busy = false ∧ t.cmdLast = s.cmdLast ∧
      t.err = if len ≠ 16 then 2 else if s.ksv = false then 3 else 0 := by
  rcases eq_or_ne len 16 with rfl | hlen
  · cases hk : s.ksv with
    | false => exact ⟨_, cryptBlock_16_of_no_schedule dir hk, rfl, rfl, rfl⟩
    | true => exact ⟨_, cryptBlock_16 dir hk, rfl, rfl, rfl⟩
  · exact ⟨_, cryptBlock_of_ne dir hlen s, rfl, rfl, (if_pos hlen).symm⟩

/-- The LEN field of a command with a length is that length (30_encoding.md R92, R93). -/
theorem toNat_lenField {i : Instr} {len : Nat} (hi : i ∈ [Instr.keyexp len, .enc len, .dec len])
    (hwf : i.wellFormed = true) : (lenField i).toNat = len := by
  simp only [List.mem_cons, List.not_mem_nil, or_false] at hi
  rcases hi with rfl | rfl | rfl <;> exact Nat.mod_eq_of_lt (Nat.lt_succ_of_le (of_decide_eq_true hwf))

/-- Every command that has an encoding completes with the code of its own fields (60_exceptions.md R231, R233). -/
theorem exec_completes {i : Instr} (hi : i.wellFormed = true) (s : State) :
    ∃ t, exec i s = .next t ∧ t.busy = false ∧ t.cmdLast = s.cmdLast ∧
      t.err = priorityCode 0 (opcode i).toNat (lenField i).toNat s.ksv := by
  cases i with
  | keyexp len =>
    rw [toNat_lenField (len := len) (by simp) hi]
    rcases eq_or_ne len 16 with rfl | hlen
    · exact ⟨_, exec_keyexp_16 s, rfl, rfl, rfl⟩
    · exact ⟨_, exec_keyexp_of_ne hlen s, rfl, rfl, (if_neg hlen).symm⟩
  | enc len =>
    rw [toNat_lenField (len := len) (by simp) hi]
    exact cryptBlock_completes .encrypt len s
  | dec len =>
    rw [toNat_lenField (len := len) (by simp) hi]
    exact cryptBlock_completes .decrypt len s
  | nop | tau | lin | link | trnd | tkey | frnd => exact ⟨_, rfl, rfl, rfl, rfl⟩

/-- The engine's turn at a pending word completes it with the code of the word's fields (60_exceptions.md R231). -/
theorem engineTurn_completes {s : State} (hb : s.busy = true) :
    ∃ t, engineTurn s = .next t ∧ t.busy = false ∧ t.cmdLast = s.cmdLast ∧
      t.err = priorityCode (fieldRsv s.p.cmd).toNat (fieldOpc s.p.cmd).toNat (fieldLen s.p.cmd).toNat s.ksv := by
  cases hd : decode s.p.cmd with
  | error e => exact ⟨_, engineTurn_of_illegal hb hd, rfl, rfl, (priorityCode_of_illegal ⟨e, hd⟩ s.ksv).symm⟩
  | ok i =>
    obtain ⟨hrsv, hop⟩ := (decode_eq_ok ..).1 hd
    obtain ⟨hwf, hopc, hlen⟩ := of_decodeOp_eq_ok hop
    rw [engineTurn_of_legal hb hd, hrsv, hopc, hlen]
    exact exec_completes hwf s

/-- Settles O8: the fields of the word as numbers, and the code of the completion by those fields. -/
theorem outcomeCodeByPriority : Obligations.OutcomeCodeByPriority := by
  intro s ts hs hb
  rw [step_eq_engineTurn hs, ← toNat_fieldRsv, ← toNat_fieldOpc, ← toNat_fieldLen]
  exact engineTurn_completes (s := setTurns s ts) hb

/-- Settles O9: of all that a completion can leave, only an error's code is not 0, and taking an error writes ERR and
BUSY alone. -/
theorem errorsArePrecise : Obligations.ErrorsArePrecise := by
  intro s t ts hs hb hstep herr
  rw [step_eq_engineTurn hs] at hstep
  rcases engineTurn_effect hstep with
    ⟨hidle, -⟩ | ⟨-, ⟨e, rfl⟩ | rfl | rfl | ⟨-, -, x, rfl⟩ | ⟨i, -, -, v, rfl⟩⟩
  · simp [hb] at hidle
  · rfl
  all_goals exact absurd rfl herr

/-- While BUSY = 0 the engine has no enabled step (44_cipher_engine.md R202). -/
theorem engineTurn_of_idle {s : State} (hb : s.busy = false) : engineTurn s = .next s := by
  simp [engineTurn, hb]

/-- Settles O7: either form of the engine's turn is that of the idle engine. -/
theorem idleEngineHoldsState : Obligations.IdleEngineHoldsState :=
  fun s hb => ⟨fun hs => (step_of_no_events hs).trans (engineTurn_of_idle hb),
    fun ts hs => (step_eq_engineTurn hs).trans (engineTurn_of_idle (s := setTurns s ts) hb)⟩

end Sys2Proof.Machine
end

section
/-! Reset and hazards: who builds and who clears the key schedule, the end of a pending command, the final state, and
asserted reset (70_reset_and_hazards.md R260, R261, R276, R278). -/

namespace Sys2Proof.Machine

/-- The step has left the key schedule: RKF and KSV are as they were. -/
def KeepsKeySchedule (s t : State) : Prop := t.rkf = s.rkf ∧ t.ksv = s.ksv

/-- A command is a successful KEYEXP or keeps the schedule (42_key_schedule.md R166; 70_reset_and_hazards.md R261). -/
theorem exec_builds_or_keeps {i : Instr} {s t : State} (h : exec i s = .next t) :
    (i = .keyexp 16 ∧ t = finish (setSchedule s (expand s.p.key))) ∨ KeepsKeySchedule s t := by
  rcases exec_cases i s with ⟨-, hx⟩ | ⟨hi, hx⟩ | ⟨-, -, hx⟩ | ⟨-, -, hx⟩ | ⟨v, -, hx⟩ | ⟨e, hx, -⟩ <;>
    obtain rfl : _ = t := Host.Outcome.next.inj (hx.symm.trans h)
  case inr.inl => exact .inl ⟨hi, rfl⟩
  all_goals exact .inr ⟨rfl, rfl⟩

/-- The engine's turn completes a successful KEYEXP or keeps the schedule (70_reset_and_hazards.md R261). -/
theorem engineTurn_builds_or_keeps {s t : State} (h : engineTurn s = .next t) :
    (s.busy = true ∧ decode s.p.cmd = .ok (.keyexp 16) ∧ t = finish (setSchedule s (expand s.p.key))) ∨
      KeepsKeySchedule s t := by
  rcases engineTurn_cases s with ⟨-, he⟩ | ⟨-, -, he⟩ | ⟨hb, i, hd, he⟩ <;> rw [he] at h
  · obtain rfl := Host.Outcome.next.inj h
    exact .inr ⟨rfl, rfl⟩
  · obtain rfl := Host.Outcome.next.inj h
    exact .inr ⟨rfl, rfl⟩
  · rcases exec_builds_or_keeps h with ⟨rfl, ht⟩ | hkeep
    · exact .inl ⟨hb, hd, ht⟩
    · exact .inr hkeep

/-- A step is a reset, the completion of a successful KEYEXP, or keeps the schedule (70_reset_and_hazards.md R261). -/
theorem step_builds_or_keeps {s t : State} (h : step s = .next t) :
    ResetDue s ∨
    (s.busy = true ∧ t.busy = false ∧ t.err = 0 ∧ decode s.p.cmd = .ok (.keyexp 16) ∧ t.rkf = expand s.p.key ∧
      t.ksv = true) ∨
    KeepsKeySchedule s t := by
  rcases step_effect h with ⟨hreset, -⟩ | ⟨-, ts, he⟩ | ⟨off, v, hs, ts, -, -, rfl⟩ | ⟨d, hs, ts, rfl⟩
  · exact .inl hreset
  · rcases engineTurn_builds_or_keeps he with ⟨hb, hd, rfl⟩ | hkeep
    · exact .inr (.inl ⟨hb, rfl, rfl, hd, rfl, rfl⟩)
    · exact .inr (.inr hkeep)
  · exact .inr (.inr ⟨writeOffset_rkf (setTurns s ts) off v, writeOffset_ksv (setTurns s ts) off v⟩)
  · exact .inr (.inr ⟨rfl, rfl⟩)

/-- Settles O13: a step that is neither a reset nor a successful KEYEXP keeps RKF and KSV. -/
theorem onlyKeyexpBuildsAndOnlyResetClearsSchedule : Obligations.OnlyKeyexpBuildsAndOnlyResetClearsSchedule := by
  intro s t h
  rcases step_builds_or_keeps h with hreset | ⟨hb, hb', herr, hd, hrkf, hksv⟩ | ⟨hrkf, hksv⟩
  · exact ⟨fun _ _ => hreset, fun _ => .inl hreset⟩
  · exact ⟨fun _ hclear => by simp [hksv] at hclear, fun _ => .inr ⟨hb, hb', herr, hd, hrkf, hksv⟩⟩
  · constructor
    · intro hset hclear
      simp [hksv, hset] at hclear
    · rintro (hne | ⟨hclear, hset⟩)
      · exact absurd hrkf hne
      · simp [hksv, hclear] at hset

/-- The engine does not own the events to come. -/
theorem engineTurn_schedule {s t : State} (h : engineTurn s = .next t) : t.schedule = s.schedule := by
  rcases engineTurn_effect h with
    ⟨-, rfl⟩ | ⟨-, ⟨e, rfl⟩ | rfl | rfl | ⟨-, -, x, rfl⟩ | ⟨i, -, -, v, rfl⟩⟩ <;> rfl

/-- A host write leaves the events to come. -/
@[simp] theorem writeOffset_schedule (s : State) (off : Nat) (v : Word) :
    (writeOffset s off v).schedule = s.schedule := by
  rcases writeOffset_cases s off v with
    h | ⟨-, h⟩ | ⟨-, -, h⟩ | ⟨-, -, h⟩ | ⟨-, -, h⟩ | ⟨i, -, h⟩ | ⟨i, -, h⟩ | ⟨-, h⟩ <;> rw [h] <;> rfl

/-- A host's turn leaves the events to come. -/
theorem hostTurn_schedule {s t : State} {k : Nat} (h : hostTurn s k = .next t) : t.schedule = s.schedule := by
  rcases hostTurn_writes_or_quiet h with ⟨a, addr, v, hs, -, -, -, rfl⟩ | ⟨d, hs, rfl⟩
  · exact writeOffset_schedule s (busOffset addr) v
  · rfl

/-- A step takes the next event from the events to come, and no other (20_memory.md R71). -/
theorem step_schedule {s t : State} (h : step s = .next t) : t.schedule = s.schedule.tail := by
  rcases step_cases s t h with ⟨ts, hs, rfl⟩ | ⟨hs, he⟩ | ⟨ts, hs, he⟩ | ⟨k, ts, hs, hh⟩
  · rw [hs]
    rfl
  · rw [engineTurn_schedule he, hs, List.tail_nil]
  · rw [engineTurn_schedule he, hs]
    rfl
  · rw [hostTurn_schedule hh, hs]
    rfl

/-- A run through all the events to come and one step more ends in an engine's turn, which leaves BUSY = 0
(70_reset_and_hazards.md R276; log 2). -/
theorem runSteps_past_events_idle {n : Nat} {s t : State} (hn : s.schedule.length = n)
    (h : runSteps (n + 1) s = .next t) : t.busy = false := by
  induction n generalizing s with
  | zero =>
    obtain ⟨u, hstep, hrun⟩ := runSteps_succ_inv 0 s t h
    obtain rfl := Host.Outcome.next.inj hrun
    exact engineTurn_busy (step_of_no_events (List.eq_nil_of_length_eq_zero hn) ▸ hstep)
  | succ n ih =>
    obtain ⟨u, hstep, hrun⟩ := runSteps_succ_inv (n + 1) s t h
    have hu : u.schedule.length = n := by rw [step_schedule hstep, List.length_tail, hn, Nat.add_sub_cancel]
    exact ih hu hrun

/-- Settles O23: the run's own last state has BUSY = 0. -/
theorem pendingCommandCompletes : Obligations.PendingCommandCompletes :=
  fun _ t _ _ h => ⟨_, t, le_rfl, h, runSteps_past_events_idle rfl h⟩

/-- A host's turn in the schedule is its turn in the state whose turn has been taken (20_memory.md R71). -/
theorem step_eq_hostTurn {s : State} {k : Nat} {ts : List Turn} (hs : s.schedule = .host k :: ts) :
    step s = hostTurn (setTurns s ts) k := by
  simp only [step, hs]

/-- The turn of a host that has executed its last statement, or of no host, changes nothing (log 12). -/
theorem hostTurn_of_finished {s : State} (hfin : ∀ h ∈ s.hosts, h.finished) (k : Nat) : hostTurn s k = .next s := by
  unfold hostTurn
  cases hh : s.hosts[k]? with
  | none => rfl
  | some h =>
    have hend : h.prog[h.pc]? = none := List.getElem?_eq_none (hfin h (List.mem_of_getElem? hh))
    simp only [hend]

/-- Taking no event from a state without events changes nothing. -/
theorem setTurns_of_schedule_eq {s : State} {ts : List Turn} (hs : s.schedule = ts) : setTurns s ts = s := by
  subst hs
  rfl

/-- Settles O24: the engine is idle and every host has finished, so whoever has the turn leaves the state. -/
theorem finalStateIsStable : Obligations.FinalStateIsStable := by
  intro s ⟨hfin, hb⟩ hreset
  change step s = .next (setTurns s s.schedule.tail)
  cases hs : s.schedule with
  | nil => rw [step_of_no_events hs, engineTurn_of_idle hb, List.tail_nil, setTurns_of_schedule_eq hs]
  | cons turn ts =>
    cases turn with
    | engine => exact (step_eq_engineTurn hs).trans (engineTurn_of_idle (s := setTurns s ts) hb)
    | host k => exact (step_eq_hostTurn hs).trans (hostTurn_of_finished (s := setTurns s ts) hfin k)
    | reset => exact absurd hs (hreset ts)

/-- Settles O5: taking the one engine turn leaves the state without events, where the engine has the turn. -/
theorem emptyScheduleIsEngineTurn : Obligations.EmptyScheduleIsEngineTurn := by
  intro s hs
  calc step s
    _ = engineTurn s := step_of_no_events hs
    _ = engineTurn (setTurns s []) := by rw [setTurns_of_schedule_eq hs]
    _ = step (setTurns s [.engine]) := (step_eq_engineTurn (s := setTurns s [.engine]) rfl).symm

/-- The next step after reset is asserted is the reset (60_exceptions.md R236). -/
theorem step_assertReset (s : State) : step (assertReset s) = .next (resetEngine s) := rfl

/-- Every word of a register file that holds four zeros is zero. -/
theorem getElem_four_zeros (i : Fin 4) : (#v[0, 0, 0, 0] : Vector Word 4)[i] = 0 := by
  fin_cases i <;> rfl

/-- After reset STATUS reads zero (10_state.md R38). -/
theorem statusWord_resetEngine (s : State) : statusWord (resetEngine s) = 0 := by
  simp [statusWord, flagWord]

/-- Settles O12: the asserted reset is the reset of the state it comes to. -/
theorem resetComesFirstAndClears : Obligations.ResetComesFirstAndClears :=
  fun s => ⟨resetEngine s, step_assertReset s, rfl, rfl, rfl, statusWord_resetEngine s,
    fun i => ⟨getElem_four_zeros i, getElem_four_zeros i, getElem_four_zeros i⟩, rfl, rfl, rfl, rfl, rfl, rfl⟩

end Sys2Proof.Machine
end
